-- ==== Sys2Proof/Word.lean ====
section
/-! DEFINITION. The two word types of the machine: the 8-bit data byte and the 16-bit address
(00_scope R8). -/

namespace Sys2Proof

/-- A data byte: register contents and bus data (00_scope R8, 10_state R26). -/
abbrev Byte := BitVec 8

/-- A 16-bit address: PC, effective address, bus address (00_scope R8, 20_memory R50). -/
abbrev Addr := BitVec 16

end Sys2Proof
end

