-- ==== Sys2Proof/Config.lean ====
section
/-! DEFINITION. What is fixed for one machine: the named parameters of 00_scope R8, and the behaviour
of attached devices the spec does not describe, as constants without a body. -/

namespace Sys2Proof

/-- The named parameters of 00_scope R8 that the spec leaves OPEN or lets a model switch. The state
carries them and no step changes them (log 6). -/
structure Params where
  /-- `RESET_CYCLES`, positive (92_eei_decisions D4). -/
  resetCycles : Nat
  /-- `IRQ_CYCLES` (D5). -/
  irqCycles : Nat
  /-- `NMI_CYCLES` (D5). -/
  nmiCycles : Nat
  /-- `BRK_PC_SKIP`: false is 0, true is 1 (D8). -/
  brkPcSkip : Bool
  /-- `SBC_V_LITERAL` (D7). -/
  sbcVLiteral : Bool
  deriving DecidableEq, Repr

/-- The defaults of 00_scope R8. -/
def Params.default : Params :=
  { resetCycles := 7, irqCycles := 7, nmiCycles := 7, brkPcSkip := false, sbcVLiteral := false }

/-- What an attached device of unknown behaviour answers to a read (`none` is `SENTINEL`) and the
state it is left in, from its number, its state and the address (20_memory R52, R63). No body: a
claim holds whatever the device does (log 7). -/
opaque Config.extRead : Nat → Nat → Addr → Option Byte × Nat

/-- Whether such a device accepts a write (`false` is `SENTINEL`), and the state it is left in. -/
opaque Config.extWrite : Nat → Nat → Addr → Byte → Bool × Nat

/-- The state such a device is left in by its `tick`. -/
opaque Config.extTick : Nat → Nat → Nat

end Sys2Proof
end

