-- ==== Sys2Proof/Syntax.lean ====
section
/-! DEFINITION. The instructions: one constructor per row of spec/opcode_table.json, the 56 mnemonics
and the 13 addressing modes (30_encoding R92, R112). -/

namespace Sys2Proof

/-- The 56 mnemonics (30_encoding R112, R123). -/
inductive Op where
  | adc | and | asl | bcc | bcs | beq | bit | bmi | bne | bpl | brk | bvc | bvs | clc
  | cld | cli | clv | cmp | cpx | cpy | dec | dex | dey | eor | inc | inx | iny | jmp
  | jsr | lda | ldx | ldy | lsr | nop | ora | pha | php | pla | plp | rol | ror | rti
  | rts | sbc | sec | sed | sei | sta | stx | sty | tax | tay | tsx | txa | txs | tya
  deriving DecidableEq, Repr

/-- The 13 addressing modes (30_encoding R92). -/
inductive Mode where
  | imp | acc | imm | zp | zpx | zpy | abs | abx | aby | ind | izx | izy | rel
  deriving DecidableEq, Repr

/-- An addressing mode together with its operand bytes: a byte `b1`, or the word `b2:b1` (30_encoding
R91 to R93). -/
inductive Operand where
  | imp
  | acc
  | imm (v : Byte)
  | zp (p : Byte)
  | zpx (p : Byte)
  | zpy (p : Byte)
  | abs (w : Addr)
  | abx (w : Addr)
  | aby (w : Addr)
  | ind (w : Addr)
  | izx (p : Byte)
  | izy (p : Byte)
  | rel (d : Byte)
  deriving DecidableEq, Repr

/-- The mode of an operand. -/
def Operand.mode : Operand → Mode
  | .imp => .imp
  | .acc => .acc
  | .imm _ => .imm
  | .zp _ => .zp
  | .zpx _ => .zpx
  | .zpy _ => .zpy
  | .abs _ => .abs
  | .abx _ => .abx
  | .aby _ => .aby
  | .ind _ => .ind
  | .izx _ => .izx
  | .izy _ => .izy
  | .rel _ => .rel

/-- The instruction's length in bytes by mode (30_encoding R92). -/
def Mode.length : Mode → Nat
  | .imp => 1
  | .acc => 1
  | .imm => 2
  | .zp => 2
  | .zpx => 2
  | .zpy => 2
  | .abs => 3
  | .abx => 3
  | .aby => 3
  | .ind => 3
  | .izx => 2
  | .izy => 2
  | .rel => 2

/-- The 151 defined instructions (30_encoding R110, R112). `v` is an immediate byte, `p` a zero-page
address, `w` a 16-bit operand, `d` a displacement. -/
inductive Instr where
  -- Loads, stores and register transfers (41_load_store_transfer.md)
  | ldaIzx (p : Byte)
  | ldaZp (p : Byte)
  | ldaImm (v : Byte)
  | ldaAbs (w : Addr)
  | ldaIzy (p : Byte)
  | ldaZpx (p : Byte)
  | ldaAby (w : Addr)
  | ldaAbx (w : Addr)
  | ldxImm (v : Byte)
  | ldxZp (p : Byte)
  | ldxAbs (w : Addr)
  | ldxZpy (p : Byte)
  | ldxAby (w : Addr)
  | ldyImm (v : Byte)
  | ldyZp (p : Byte)
  | ldyAbs (w : Addr)
  | ldyZpx (p : Byte)
  | ldyAbx (w : Addr)
  | staIzx (p : Byte)
  | staZp (p : Byte)
  | staAbs (w : Addr)
  | staIzy (p : Byte)
  | staZpx (p : Byte)
  | staAby (w : Addr)
  | staAbx (w : Addr)
  | stxZp (p : Byte)
  | stxAbs (w : Addr)
  | stxZpy (p : Byte)
  | styZp (p : Byte)
  | styAbs (w : Addr)
  | styZpx (p : Byte)
  | tax
  | tay
  | txa
  | tya
  | tsx
  | txs
  -- Arithmetic, logic, compare, bit test, increment and decrement (42_arithmetic_logic.md)
  | adcIzx (p : Byte)
  | adcZp (p : Byte)
  | adcImm (v : Byte)
  | adcAbs (w : Addr)
  | adcIzy (p : Byte)
  | adcZpx (p : Byte)
  | adcAby (w : Addr)
  | adcAbx (w : Addr)
  | sbcIzx (p : Byte)
  | sbcZp (p : Byte)
  | sbcImm (v : Byte)
  | sbcAbs (w : Addr)
  | sbcIzy (p : Byte)
  | sbcZpx (p : Byte)
  | sbcAby (w : Addr)
  | sbcAbx (w : Addr)
  | andIzx (p : Byte)
  | andZp (p : Byte)
  | andImm (v : Byte)
  | andAbs (w : Addr)
  | andIzy (p : Byte)
  | andZpx (p : Byte)
  | andAby (w : Addr)
  | andAbx (w : Addr)
  | oraIzx (p : Byte)
  | oraZp (p : Byte)
  | oraImm (v : Byte)
  | oraAbs (w : Addr)
  | oraIzy (p : Byte)
  | oraZpx (p : Byte)
  | oraAby (w : Addr)
  | oraAbx (w : Addr)
  | eorIzx (p : Byte)
  | eorZp (p : Byte)
  | eorImm (v : Byte)
  | eorAbs (w : Addr)
  | eorIzy (p : Byte)
  | eorZpx (p : Byte)
  | eorAby (w : Addr)
  | eorAbx (w : Addr)
  | cmpIzx (p : Byte)
  | cmpZp (p : Byte)
  | cmpImm (v : Byte)
  | cmpAbs (w : Addr)
  | cmpIzy (p : Byte)
  | cmpZpx (p : Byte)
  | cmpAby (w : Addr)
  | cmpAbx (w : Addr)
  | cpxImm (v : Byte)
  | cpxZp (p : Byte)
  | cpxAbs (w : Addr)
  | cpyImm (v : Byte)
  | cpyZp (p : Byte)
  | cpyAbs (w : Addr)
  | bitZp (p : Byte)
  | bitAbs (w : Addr)
  | incZp (p : Byte)
  | incAbs (w : Addr)
  | incZpx (p : Byte)
  | incAbx (w : Addr)
  | decZp (p : Byte)
  | decAbs (w : Addr)
  | decZpx (p : Byte)
  | decAbx (w : Addr)
  | inx
  | iny
  | dex
  | dey
  -- Shifts and rotates (43_shift_rotate.md)
  | aslZp (p : Byte)
  | aslAcc
  | aslAbs (w : Addr)
  | aslZpx (p : Byte)
  | aslAbx (w : Addr)
  | lsrZp (p : Byte)
  | lsrAcc
  | lsrAbs (w : Addr)
  | lsrZpx (p : Byte)
  | lsrAbx (w : Addr)
  | rolZp (p : Byte)
  | rolAcc
  | rolAbs (w : Addr)
  | rolZpx (p : Byte)
  | rolAbx (w : Addr)
  | rorZp (p : Byte)
  | rorAcc
  | rorAbs (w : Addr)
  | rorZpx (p : Byte)
  | rorAbx (w : Addr)
  -- Jumps, subroutines and branches (44_control_flow.md)
  | jmpAbs (w : Addr)
  | jmpInd (w : Addr)
  | jsr (w : Addr)
  | rts
  | bcc (d : Byte)
  | bcs (d : Byte)
  | beq (d : Byte)
  | bne (d : Byte)
  | bmi (d : Byte)
  | bpl (d : Byte)
  | bvc (d : Byte)
  | bvs (d : Byte)
  -- Stack, flag and system instructions (45_stack_flags_system.md)
  | pha
  | pla
  | php
  | plp
  | clc
  | sec
  | cli
  | sei
  | cld
  | sed
  | clv
  | nop
  | brk
  | rti
  deriving DecidableEq, Repr

/-- The mnemonic of an instruction. -/
def Instr.op : Instr → Op
  | .ldaIzx _ => .lda
  | .ldaZp _ => .lda
  | .ldaImm _ => .lda
  | .ldaAbs _ => .lda
  | .ldaIzy _ => .lda
  | .ldaZpx _ => .lda
  | .ldaAby _ => .lda
  | .ldaAbx _ => .lda
  | .ldxImm _ => .ldx
  | .ldxZp _ => .ldx
  | .ldxAbs _ => .ldx
  | .ldxZpy _ => .ldx
  | .ldxAby _ => .ldx
  | .ldyImm _ => .ldy
  | .ldyZp _ => .ldy
  | .ldyAbs _ => .ldy
  | .ldyZpx _ => .ldy
  | .ldyAbx _ => .ldy
  | .staIzx _ => .sta
  | .staZp _ => .sta
  | .staAbs _ => .sta
  | .staIzy _ => .sta
  | .staZpx _ => .sta
  | .staAby _ => .sta
  | .staAbx _ => .sta
  | .stxZp _ => .stx
  | .stxAbs _ => .stx
  | .stxZpy _ => .stx
  | .styZp _ => .sty
  | .styAbs _ => .sty
  | .styZpx _ => .sty
  | .tax => .tax
  | .tay => .tay
  | .txa => .txa
  | .tya => .tya
  | .tsx => .tsx
  | .txs => .txs
  | .adcIzx _ => .adc
  | .adcZp _ => .adc
  | .adcImm _ => .adc
  | .adcAbs _ => .adc
  | .adcIzy _ => .adc
  | .adcZpx _ => .adc
  | .adcAby _ => .adc
  | .adcAbx _ => .adc
  | .sbcIzx _ => .sbc
  | .sbcZp _ => .sbc
  | .sbcImm _ => .sbc
  | .sbcAbs _ => .sbc
  | .sbcIzy _ => .sbc
  | .sbcZpx _ => .sbc
  | .sbcAby _ => .sbc
  | .sbcAbx _ => .sbc
  | .andIzx _ => .and
  | .andZp _ => .and
  | .andImm _ => .and
  | .andAbs _ => .and
  | .andIzy _ => .and
  | .andZpx _ => .and
  | .andAby _ => .and
  | .andAbx _ => .and
  | .oraIzx _ => .ora
  | .oraZp _ => .ora
  | .oraImm _ => .ora
  | .oraAbs _ => .ora
  | .oraIzy _ => .ora
  | .oraZpx _ => .ora
  | .oraAby _ => .ora
  | .oraAbx _ => .ora
  | .eorIzx _ => .eor
  | .eorZp _ => .eor
  | .eorImm _ => .eor
  | .eorAbs _ => .eor
  | .eorIzy _ => .eor
  | .eorZpx _ => .eor
  | .eorAby _ => .eor
  | .eorAbx _ => .eor
  | .cmpIzx _ => .cmp
  | .cmpZp _ => .cmp
  | .cmpImm _ => .cmp
  | .cmpAbs _ => .cmp
  | .cmpIzy _ => .cmp
  | .cmpZpx _ => .cmp
  | .cmpAby _ => .cmp
  | .cmpAbx _ => .cmp
  | .cpxImm _ => .cpx
  | .cpxZp _ => .cpx
  | .cpxAbs _ => .cpx
  | .cpyImm _ => .cpy
  | .cpyZp _ => .cpy
  | .cpyAbs _ => .cpy
  | .bitZp _ => .bit
  | .bitAbs _ => .bit
  | .incZp _ => .inc
  | .incAbs _ => .inc
  | .incZpx _ => .inc
  | .incAbx _ => .inc
  | .decZp _ => .dec
  | .decAbs _ => .dec
  | .decZpx _ => .dec
  | .decAbx _ => .dec
  | .inx => .inx
  | .iny => .iny
  | .dex => .dex
  | .dey => .dey
  | .aslZp _ => .asl
  | .aslAcc => .asl
  | .aslAbs _ => .asl
  | .aslZpx _ => .asl
  | .aslAbx _ => .asl
  | .lsrZp _ => .lsr
  | .lsrAcc => .lsr
  | .lsrAbs _ => .lsr
  | .lsrZpx _ => .lsr
  | .lsrAbx _ => .lsr
  | .rolZp _ => .rol
  | .rolAcc => .rol
  | .rolAbs _ => .rol
  | .rolZpx _ => .rol
  | .rolAbx _ => .rol
  | .rorZp _ => .ror
  | .rorAcc => .ror
  | .rorAbs _ => .ror
  | .rorZpx _ => .ror
  | .rorAbx _ => .ror
  | .jmpAbs _ => .jmp
  | .jmpInd _ => .jmp
  | .jsr _ => .jsr
  | .rts => .rts
  | .bcc _ => .bcc
  | .bcs _ => .bcs
  | .beq _ => .beq
  | .bne _ => .bne
  | .bmi _ => .bmi
  | .bpl _ => .bpl
  | .bvc _ => .bvc
  | .bvs _ => .bvs
  | .pha => .pha
  | .pla => .pla
  | .php => .php
  | .plp => .plp
  | .clc => .clc
  | .sec => .sec
  | .cli => .cli
  | .sei => .sei
  | .cld => .cld
  | .sed => .sed
  | .clv => .clv
  | .nop => .nop
  | .brk => .brk
  | .rti => .rti

/-- The addressing mode and operand of an instruction. -/
def Instr.operand : Instr → Operand
  | .ldaIzx p => .izx p
  | .ldaZp p => .zp p
  | .ldaImm v => .imm v
  | .ldaAbs w => .abs w
  | .ldaIzy p => .izy p
  | .ldaZpx p => .zpx p
  | .ldaAby w => .aby w
  | .ldaAbx w => .abx w
  | .ldxImm v => .imm v
  | .ldxZp p => .zp p
  | .ldxAbs w => .abs w
  | .ldxZpy p => .zpy p
  | .ldxAby w => .aby w
  | .ldyImm v => .imm v
  | .ldyZp p => .zp p
  | .ldyAbs w => .abs w
  | .ldyZpx p => .zpx p
  | .ldyAbx w => .abx w
  | .staIzx p => .izx p
  | .staZp p => .zp p
  | .staAbs w => .abs w
  | .staIzy p => .izy p
  | .staZpx p => .zpx p
  | .staAby w => .aby w
  | .staAbx w => .abx w
  | .stxZp p => .zp p
  | .stxAbs w => .abs w
  | .stxZpy p => .zpy p
  | .styZp p => .zp p
  | .styAbs w => .abs w
  | .styZpx p => .zpx p
  | .tax => .imp
  | .tay => .imp
  | .txa => .imp
  | .tya => .imp
  | .tsx => .imp
  | .txs => .imp
  | .adcIzx p => .izx p
  | .adcZp p => .zp p
  | .adcImm v => .imm v
  | .adcAbs w => .abs w
  | .adcIzy p => .izy p
  | .adcZpx p => .zpx p
  | .adcAby w => .aby w
  | .adcAbx w => .abx w
  | .sbcIzx p => .izx p
  | .sbcZp p => .zp p
  | .sbcImm v => .imm v
  | .sbcAbs w => .abs w
  | .sbcIzy p => .izy p
  | .sbcZpx p => .zpx p
  | .sbcAby w => .aby w
  | .sbcAbx w => .abx w
  | .andIzx p => .izx p
  | .andZp p => .zp p
  | .andImm v => .imm v
  | .andAbs w => .abs w
  | .andIzy p => .izy p
  | .andZpx p => .zpx p
  | .andAby w => .aby w
  | .andAbx w => .abx w
  | .oraIzx p => .izx p
  | .oraZp p => .zp p
  | .oraImm v => .imm v
  | .oraAbs w => .abs w
  | .oraIzy p => .izy p
  | .oraZpx p => .zpx p
  | .oraAby w => .aby w
  | .oraAbx w => .abx w
  | .eorIzx p => .izx p
  | .eorZp p => .zp p
  | .eorImm v => .imm v
  | .eorAbs w => .abs w
  | .eorIzy p => .izy p
  | .eorZpx p => .zpx p
  | .eorAby w => .aby w
  | .eorAbx w => .abx w
  | .cmpIzx p => .izx p
  | .cmpZp p => .zp p
  | .cmpImm v => .imm v
  | .cmpAbs w => .abs w
  | .cmpIzy p => .izy p
  | .cmpZpx p => .zpx p
  | .cmpAby w => .aby w
  | .cmpAbx w => .abx w
  | .cpxImm v => .imm v
  | .cpxZp p => .zp p
  | .cpxAbs w => .abs w
  | .cpyImm v => .imm v
  | .cpyZp p => .zp p
  | .cpyAbs w => .abs w
  | .bitZp p => .zp p
  | .bitAbs w => .abs w
  | .incZp p => .zp p
  | .incAbs w => .abs w
  | .incZpx p => .zpx p
  | .incAbx w => .abx w
  | .decZp p => .zp p
  | .decAbs w => .abs w
  | .decZpx p => .zpx p
  | .decAbx w => .abx w
  | .inx => .imp
  | .iny => .imp
  | .dex => .imp
  | .dey => .imp
  | .aslZp p => .zp p
  | .aslAcc => .acc
  | .aslAbs w => .abs w
  | .aslZpx p => .zpx p
  | .aslAbx w => .abx w
  | .lsrZp p => .zp p
  | .lsrAcc => .acc
  | .lsrAbs w => .abs w
  | .lsrZpx p => .zpx p
  | .lsrAbx w => .abx w
  | .rolZp p => .zp p
  | .rolAcc => .acc
  | .rolAbs w => .abs w
  | .rolZpx p => .zpx p
  | .rolAbx w => .abx w
  | .rorZp p => .zp p
  | .rorAcc => .acc
  | .rorAbs w => .abs w
  | .rorZpx p => .zpx p
  | .rorAbx w => .abx w
  | .jmpAbs w => .abs w
  | .jmpInd w => .ind w
  | .jsr w => .abs w
  | .rts => .imp
  | .bcc d => .rel d
  | .bcs d => .rel d
  | .beq d => .rel d
  | .bne d => .rel d
  | .bmi d => .rel d
  | .bpl d => .rel d
  | .bvc d => .rel d
  | .bvs d => .rel d
  | .pha => .imp
  | .pla => .imp
  | .php => .imp
  | .plp => .imp
  | .clc => .imp
  | .sec => .imp
  | .cli => .imp
  | .sei => .imp
  | .cld => .imp
  | .sed => .imp
  | .clv => .imp
  | .nop => .imp
  | .brk => .imp
  | .rti => .imp

/-- The addressing mode of an instruction. -/
def Instr.mode (i : Instr) : Mode := i.operand.mode

/-- The length of an instruction in bytes, 1 to 3 (30_encoding R90). -/
def Instr.length (i : Instr) : Nat := i.mode.length

end Sys2Proof
end

