-- ==== Sys2Proof/Decode.lean ====
section
/-! DEFINITION. The decoder, total on any bytes, and the encoder (30_encoding.md). The opcode is looked
up whole in the table of R110 and R112 and never taken apart (R91). -/

namespace Sys2Proof

/-- `hi:lo`, the 16-bit value `hi * 256 + lo` (00_scope R9, 30_encoding R93). -/
def word16 (hi lo : Byte) : Addr := hi ++ lo

/-- The high byte of a word. -/
def hiByte (w : Addr) : Byte := w.extractLsb' 8 8

/-- The low byte of a word. -/
def loByte (w : Addr) : Byte := w.extractLsb' 0 8

/-- Why bytes are no instruction. -/
inductive DecodeError where
  /-- There is no byte at all. -/
  | noBytes
  /-- The opcode is one of the 105 undefined values (30_encoding R118). -/
  | unknownOpcode (opcode : Byte)
  /-- An operand byte is missing. -/
  | truncated (opcode : Byte)
  deriving DecidableEq, Repr

/-- What the decoder answers: an instruction and the bytes after it, or a named rejection. -/
inductive Decoded where
  | ok (i : Instr) (rest : List Byte)
  | rejected (e : DecodeError)
  deriving DecidableEq, Repr

/-- What a table row builds from its operand bytes. -/
inductive Form where
  | plain (i : Instr)
  | byte (f : Byte → Instr)
  | word (f : Addr → Instr)

/-- How many operand bytes a form has (30_encoding R92). -/
def Form.operandCount : Form → Nat
  | .plain _ => 0
  | .byte _ => 1
  | .word _ => 2

/-- Row 0x of the grid of 30_encoding R110. -/
def opcodeRow0 : List (Nat × Form) :=
  [(0x00, .plain .brk), (0x01, .byte .oraIzx), (0x05, .byte .oraZp), (0x06, .byte .aslZp),
   (0x08, .plain .php), (0x09, .byte .oraImm), (0x0A, .plain .aslAcc), (0x0D, .word .oraAbs),
   (0x0E, .word .aslAbs)]

/-- Row 1x of the grid of 30_encoding R110. -/
def opcodeRow1 : List (Nat × Form) :=
  [(0x10, .byte .bpl), (0x11, .byte .oraIzy), (0x15, .byte .oraZpx), (0x16, .byte .aslZpx),
   (0x18, .plain .clc), (0x19, .word .oraAby), (0x1D, .word .oraAbx), (0x1E, .word .aslAbx)]

/-- Row 2x of the grid of 30_encoding R110. -/
def opcodeRow2 : List (Nat × Form) :=
  [(0x20, .word .jsr), (0x21, .byte .andIzx), (0x24, .byte .bitZp), (0x25, .byte .andZp),
   (0x26, .byte .rolZp), (0x28, .plain .plp), (0x29, .byte .andImm), (0x2A, .plain .rolAcc),
   (0x2C, .word .bitAbs), (0x2D, .word .andAbs), (0x2E, .word .rolAbs)]

/-- Row 3x of the grid of 30_encoding R110. -/
def opcodeRow3 : List (Nat × Form) :=
  [(0x30, .byte .bmi), (0x31, .byte .andIzy), (0x35, .byte .andZpx), (0x36, .byte .rolZpx),
   (0x38, .plain .sec), (0x39, .word .andAby), (0x3D, .word .andAbx), (0x3E, .word .rolAbx)]

/-- Row 4x of the grid of 30_encoding R110. -/
def opcodeRow4 : List (Nat × Form) :=
  [(0x40, .plain .rti), (0x41, .byte .eorIzx), (0x45, .byte .eorZp), (0x46, .byte .lsrZp),
   (0x48, .plain .pha), (0x49, .byte .eorImm), (0x4A, .plain .lsrAcc), (0x4C, .word .jmpAbs),
   (0x4D, .word .eorAbs), (0x4E, .word .lsrAbs)]

/-- Row 5x of the grid of 30_encoding R110. -/
def opcodeRow5 : List (Nat × Form) :=
  [(0x50, .byte .bvc), (0x51, .byte .eorIzy), (0x55, .byte .eorZpx), (0x56, .byte .lsrZpx),
   (0x58, .plain .cli), (0x59, .word .eorAby), (0x5D, .word .eorAbx), (0x5E, .word .lsrAbx)]

/-- Row 6x of the grid of 30_encoding R110. -/
def opcodeRow6 : List (Nat × Form) :=
  [(0x60, .plain .rts), (0x61, .byte .adcIzx), (0x65, .byte .adcZp), (0x66, .byte .rorZp),
   (0x68, .plain .pla), (0x69, .byte .adcImm), (0x6A, .plain .rorAcc), (0x6C, .word .jmpInd),
   (0x6D, .word .adcAbs), (0x6E, .word .rorAbs)]

/-- Row 7x of the grid of 30_encoding R110. -/
def opcodeRow7 : List (Nat × Form) :=
  [(0x70, .byte .bvs), (0x71, .byte .adcIzy), (0x75, .byte .adcZpx), (0x76, .byte .rorZpx),
   (0x78, .plain .sei), (0x79, .word .adcAby), (0x7D, .word .adcAbx), (0x7E, .word .rorAbx)]

/-- Row 8x of the grid of 30_encoding R110. -/
def opcodeRow8 : List (Nat × Form) :=
  [(0x81, .byte .staIzx), (0x84, .byte .styZp), (0x85, .byte .staZp), (0x86, .byte .stxZp),
   (0x88, .plain .dey), (0x8A, .plain .txa), (0x8C, .word .styAbs), (0x8D, .word .staAbs),
   (0x8E, .word .stxAbs)]

/-- Row 9x of the grid of 30_encoding R110. -/
def opcodeRow9 : List (Nat × Form) :=
  [(0x90, .byte .bcc), (0x91, .byte .staIzy), (0x94, .byte .styZpx), (0x95, .byte .staZpx),
   (0x96, .byte .stxZpy), (0x98, .plain .tya), (0x99, .word .staAby), (0x9A, .plain .txs),
   (0x9D, .word .staAbx)]

/-- Row Ax of the grid of 30_encoding R110. -/
def opcodeRowA : List (Nat × Form) :=
  [(0xA0, .byte .ldyImm), (0xA1, .byte .ldaIzx), (0xA2, .byte .ldxImm), (0xA4, .byte .ldyZp),
   (0xA5, .byte .ldaZp), (0xA6, .byte .ldxZp), (0xA8, .plain .tay), (0xA9, .byte .ldaImm),
   (0xAA, .plain .tax), (0xAC, .word .ldyAbs), (0xAD, .word .ldaAbs), (0xAE, .word .ldxAbs)]

/-- Row Bx of the grid of 30_encoding R110. -/
def opcodeRowB : List (Nat × Form) :=
  [(0xB0, .byte .bcs), (0xB1, .byte .ldaIzy), (0xB4, .byte .ldyZpx), (0xB5, .byte .ldaZpx),
   (0xB6, .byte .ldxZpy), (0xB8, .plain .clv), (0xB9, .word .ldaAby), (0xBA, .plain .tsx),
   (0xBC, .word .ldyAbx), (0xBD, .word .ldaAbx), (0xBE, .word .ldxAby)]

/-- Row Cx of the grid of 30_encoding R110. -/
def opcodeRowC : List (Nat × Form) :=
  [(0xC0, .byte .cpyImm), (0xC1, .byte .cmpIzx), (0xC4, .byte .cpyZp), (0xC5, .byte .cmpZp),
   (0xC6, .byte .decZp), (0xC8, .plain .iny), (0xC9, .byte .cmpImm), (0xCA, .plain .dex),
   (0xCC, .word .cpyAbs), (0xCD, .word .cmpAbs), (0xCE, .word .decAbs)]

/-- Row Dx of the grid of 30_encoding R110. -/
def opcodeRowD : List (Nat × Form) :=
  [(0xD0, .byte .bne), (0xD1, .byte .cmpIzy), (0xD5, .byte .cmpZpx), (0xD6, .byte .decZpx),
   (0xD8, .plain .cld), (0xD9, .word .cmpAby), (0xDD, .word .cmpAbx), (0xDE, .word .decAbx)]

/-- Row Ex of the grid of 30_encoding R110. -/
def opcodeRowE : List (Nat × Form) :=
  [(0xE0, .byte .cpxImm), (0xE1, .byte .sbcIzx), (0xE4, .byte .cpxZp), (0xE5, .byte .sbcZp),
   (0xE6, .byte .incZp), (0xE8, .plain .inx), (0xE9, .byte .sbcImm), (0xEA, .plain .nop),
   (0xEC, .word .cpxAbs), (0xED, .word .sbcAbs), (0xEE, .word .incAbs)]

/-- Row Fx of the grid of 30_encoding R110. -/
def opcodeRowF : List (Nat × Form) :=
  [(0xF0, .byte .beq), (0xF1, .byte .sbcIzy), (0xF5, .byte .sbcZpx), (0xF6, .byte .incZpx),
   (0xF8, .plain .sed), (0xF9, .word .sbcAby), (0xFD, .word .sbcAbx), (0xFE, .word .incAbx)]

/-- The instruction table: 151 of the 256 opcode values (30_encoding R110). -/
def opcodeTable : List (Nat × Form) :=
  opcodeRow0 ++ opcodeRow1 ++ opcodeRow2 ++ opcodeRow3 ++ opcodeRow4 ++ opcodeRow5 ++ opcodeRow6 ++ opcodeRow7 ++
  opcodeRow8 ++ opcodeRow9 ++ opcodeRowA ++ opcodeRowB ++ opcodeRowC ++ opcodeRowD ++ opcodeRowE ++ opcodeRowF

/-- The first row of a table with this opcode. -/
def lookupForm (opcode : Nat) : List (Nat × Form) → Option Form
  | [] => none
  | (k, f) :: rows => if k = opcode then some f else lookupForm opcode rows

/-- The form of an opcode, none for the 105 undefined values (30_encoding R110, R118). -/
def formOf (opcode : Byte) : Option Form := lookupForm opcode.toNat opcodeTable

/-- How many operand bytes follow an opcode; an undefined opcode takes none (30_encoding R120). -/
def operandCount (opcode : Byte) : Nat :=
  match formOf opcode with
  | none => 0
  | some f => f.operandCount

/-- Apply a form to the bytes after its opcode. -/
def Form.decode (opcode : Byte) : Form → List Byte → Decoded
  | .plain i, rest => .ok i rest
  | .byte f, b1 :: rest => .ok (f b1) rest
  | .word f, b1 :: b2 :: rest => .ok (f (word16 b2 b1)) rest
  | .byte _, [] => .rejected (.truncated opcode)
  | .word _, [] => .rejected (.truncated opcode)
  | .word _, [_] => .rejected (.truncated opcode)

/-- The decoder: the instruction at the head of the bytes and the bytes after it (30_encoding R90,
R91, R93, R110). -/
def decode : List Byte → Decoded
  | [] => .rejected .noBytes
  | opcode :: rest =>
    match formOf opcode with
    | none => .rejected (.unknownOpcode opcode)
    | some f => f.decode opcode rest

/-- The opcode byte of an instruction (30_encoding R112). -/
def Instr.opcode : Instr → Byte
  | .ldaIzx _ => 0xA1
  | .ldaZp _ => 0xA5
  | .ldaImm _ => 0xA9
  | .ldaAbs _ => 0xAD
  | .ldaIzy _ => 0xB1
  | .ldaZpx _ => 0xB5
  | .ldaAby _ => 0xB9
  | .ldaAbx _ => 0xBD
  | .ldxImm _ => 0xA2
  | .ldxZp _ => 0xA6
  | .ldxAbs _ => 0xAE
  | .ldxZpy _ => 0xB6
  | .ldxAby _ => 0xBE
  | .ldyImm _ => 0xA0
  | .ldyZp _ => 0xA4
  | .ldyAbs _ => 0xAC
  | .ldyZpx _ => 0xB4
  | .ldyAbx _ => 0xBC
  | .staIzx _ => 0x81
  | .staZp _ => 0x85
  | .staAbs _ => 0x8D
  | .staIzy _ => 0x91
  | .staZpx _ => 0x95
  | .staAby _ => 0x99
  | .staAbx _ => 0x9D
  | .stxZp _ => 0x86
  | .stxAbs _ => 0x8E
  | .stxZpy _ => 0x96
  | .styZp _ => 0x84
  | .styAbs _ => 0x8C
  | .styZpx _ => 0x94
  | .tax => 0xAA
  | .tay => 0xA8
  | .txa => 0x8A
  | .tya => 0x98
  | .tsx => 0xBA
  | .txs => 0x9A
  | .adcIzx _ => 0x61
  | .adcZp _ => 0x65
  | .adcImm _ => 0x69
  | .adcAbs _ => 0x6D
  | .adcIzy _ => 0x71
  | .adcZpx _ => 0x75
  | .adcAby _ => 0x79
  | .adcAbx _ => 0x7D
  | .sbcIzx _ => 0xE1
  | .sbcZp _ => 0xE5
  | .sbcImm _ => 0xE9
  | .sbcAbs _ => 0xED
  | .sbcIzy _ => 0xF1
  | .sbcZpx _ => 0xF5
  | .sbcAby _ => 0xF9
  | .sbcAbx _ => 0xFD
  | .andIzx _ => 0x21
  | .andZp _ => 0x25
  | .andImm _ => 0x29
  | .andAbs _ => 0x2D
  | .andIzy _ => 0x31
  | .andZpx _ => 0x35
  | .andAby _ => 0x39
  | .andAbx _ => 0x3D
  | .oraIzx _ => 0x01
  | .oraZp _ => 0x05
  | .oraImm _ => 0x09
  | .oraAbs _ => 0x0D
  | .oraIzy _ => 0x11
  | .oraZpx _ => 0x15
  | .oraAby _ => 0x19
  | .oraAbx _ => 0x1D
  | .eorIzx _ => 0x41
  | .eorZp _ => 0x45
  | .eorImm _ => 0x49
  | .eorAbs _ => 0x4D
  | .eorIzy _ => 0x51
  | .eorZpx _ => 0x55
  | .eorAby _ => 0x59
  | .eorAbx _ => 0x5D
  | .cmpIzx _ => 0xC1
  | .cmpZp _ => 0xC5
  | .cmpImm _ => 0xC9
  | .cmpAbs _ => 0xCD
  | .cmpIzy _ => 0xD1
  | .cmpZpx _ => 0xD5
  | .cmpAby _ => 0xD9
  | .cmpAbx _ => 0xDD
  | .cpxImm _ => 0xE0
  | .cpxZp _ => 0xE4
  | .cpxAbs _ => 0xEC
  | .cpyImm _ => 0xC0
  | .cpyZp _ => 0xC4
  | .cpyAbs _ => 0xCC
  | .bitZp _ => 0x24
  | .bitAbs _ => 0x2C
  | .incZp _ => 0xE6
  | .incAbs _ => 0xEE
  | .incZpx _ => 0xF6
  | .incAbx _ => 0xFE
  | .decZp _ => 0xC6
  | .decAbs _ => 0xCE
  | .decZpx _ => 0xD6
  | .decAbx _ => 0xDE
  | .inx => 0xE8
  | .iny => 0xC8
  | .dex => 0xCA
  | .dey => 0x88
  | .aslZp _ => 0x06
  | .aslAcc => 0x0A
  | .aslAbs _ => 0x0E
  | .aslZpx _ => 0x16
  | .aslAbx _ => 0x1E
  | .lsrZp _ => 0x46
  | .lsrAcc => 0x4A
  | .lsrAbs _ => 0x4E
  | .lsrZpx _ => 0x56
  | .lsrAbx _ => 0x5E
  | .rolZp _ => 0x26
  | .rolAcc => 0x2A
  | .rolAbs _ => 0x2E
  | .rolZpx _ => 0x36
  | .rolAbx _ => 0x3E
  | .rorZp _ => 0x66
  | .rorAcc => 0x6A
  | .rorAbs _ => 0x6E
  | .rorZpx _ => 0x76
  | .rorAbx _ => 0x7E
  | .jmpAbs _ => 0x4C
  | .jmpInd _ => 0x6C
  | .jsr _ => 0x20
  | .rts => 0x60
  | .bcc _ => 0x90
  | .bcs _ => 0xB0
  | .beq _ => 0xF0
  | .bne _ => 0xD0
  | .bmi _ => 0x30
  | .bpl _ => 0x10
  | .bvc _ => 0x50
  | .bvs _ => 0x70
  | .pha => 0x48
  | .pla => 0x68
  | .php => 0x08
  | .plp => 0x28
  | .clc => 0x18
  | .sec => 0x38
  | .cli => 0x58
  | .sei => 0x78
  | .cld => 0xD8
  | .sed => 0xF8
  | .clv => 0xB8
  | .nop => 0xEA
  | .brk => 0x00
  | .rti => 0x40

/-- The operand bytes in memory order, low byte first (30_encoding R91, R93). -/
def Operand.bytes : Operand → List Byte
  | .imp => []
  | .acc => []
  | .imm v => [v]
  | .zp p => [p]
  | .zpx p => [p]
  | .zpy p => [p]
  | .abs w => [loByte w, hiByte w]
  | .abx w => [loByte w, hiByte w]
  | .aby w => [loByte w, hiByte w]
  | .ind w => [loByte w, hiByte w]
  | .izx p => [p]
  | .izy p => [p]
  | .rel d => [d]

/-- The bytes of an instruction: the opcode, then its operand bytes (30_encoding R90). -/
def encode (i : Instr) : List Byte := i.opcode :: i.operand.bytes

/-- Byte `k` of a number whose bit 0 is the least significant bit of the first byte. -/
def byteOf (w k : Nat) : Byte := BitVec.ofNat 8 (w / 256 ^ k)

/-- The three bytes that a row's `nbits` bits `w` stand for, every bit above `nbits` being 0. -/
def tableBytes (nbits w : Nat) : List Byte :=
  let v := w % 2 ^ nbits
  [byteOf v 0, byteOf v 1, byteOf v 2]

/-- The instruction the decoder reads from an instruction whose bits are `w`, numbered as
spec/opcode_table.json numbers them. -/
def decodeTableWord (nbits w : Nat) : Option Instr :=
  match decode (tableBytes nbits w) with
  | .ok i _ => some i
  | .rejected _ => none

end Sys2Proof
end

