-- ==== Sys2Proof/Machine/State.lean ====
section
/-! DEFINITION. The state of the machine as plain data: the CPU (10_state R20), the Bus and its devices
(20_memory R52, R69), the host's coming calls, and the state after reset (10_state R37). -/

namespace Sys2Proof.Machine

/-- The machine's one fault (60_exceptions R260, R264). -/
inductive Fault where
  /-- Raised by dispatch when the opcode at `pc` is one of the 105 undefined values. The spec gives
  its whole effect (PC restored, this record kept, no progress until reset), so it is recorded in
  `State.halted` by a next state and no step ends in it (log 8). Safe. -/
  | unknownOpcode (pc : Addr) (opcode : Byte)
  deriving DecidableEq, Repr

/-- What the model gives no step to. Each is a refusal the spec itself asks for, except the first. -/
inductive Refusal where
  /-- Answered only by an arm of `exec` whose instruction has no meaning yet. Safe. -/
  | notModelled (mnemonic : String)
  /-- A tick, `irq` or `nmi` of a CPU that was never reset (10_state R38, 92 D24). Safe. -/
  | neverReset
  /-- `connect` of a device that is connected (20_memory R53, 92 D16). Safe. -/
  | deviceAlreadyConnected
  /-- `connect` of a device that does not exist (93 U14, 20_memory R54). Safe. -/
  | noSuchDevice
  /-- `Load` or `Store` with the Implied tag; no instruction makes such a call (93 U10). Safe. -/
  | impliedOperand
  /-- `Load` or `Store` with an offset in Accumulator mode; no instruction makes such a call (93 U9).
  Safe. -/
  | accumulatorOffset
  deriving DecidableEq, Repr

/-- The addressing-mode tag (10_state R31). The Immediate tag carries the operand byte at `EA`, which
the fetch has read (log 4). -/
inductive Tag where
  | implied
  | accumulator
  | immediate (operand : Byte)
  | address
  deriving DecidableEq, Repr

/-- The seven stored flags N V B D I Z C (10_state R28). -/
@[ext]
structure Flags where
  n : Bool
  v : Bool
  b : Bool
  d : Bool
  i : Bool
  z : Bool
  c : Bool
  deriving DecidableEq, Repr

/-- The bytes a RAM device holds: index and byte, indexes strictly rising, no entry equal to what an
unlisted index reads as. -/
abbrev Memory := List Host.Cell

/-- What a RAM or ROM device does with a write inside its window (20_memory R69, R73). -/
inductive WriteMode where
  /-- RAM: the byte is stored and the write accepted. -/
  | stores
  /-- ROM that answers `SENTINEL`, so that the next device is asked. -/
  | declines
  /-- ROM that accepts the write and drops the byte. -/
  | ignores
  deriving DecidableEq, Repr

/-- The RAM/ROM device (20_memory R69): a capacity, an inclusive window, an index formula (93 U16) and
the bytes. -/
structure Ram where
  lo : Addr
  hi : Addr
  capacity : Nat
  /-- The index is `(addr - lo) mod capacity` if true, `addr mod capacity` if false (93 U16). -/
  fromWindow : Bool
  onWrite : WriteMode
  cells : Memory
  deriving DecidableEq, Repr

/-- A device of unknown behaviour: its capabilities (20_memory R52) and its state, which the constants
`Config.extRead`, `extWrite`, `extTick` read and replace (log 7). -/
structure External where
  canTick : Bool
  canRead : Bool
  canWrite : Bool
  state : Nat
  deriving DecidableEq, Repr

/-- A device the host may attach to the Bus. -/
inductive Device where
  /-- The CPU: it has `tick` only (20_memory R52). Its state is the machine's. -/
  | cpu
  | ram (id : Nat) (r : Ram)
  /-- A device with `tick` only, which counts its calls (60_exceptions R281, 95 section 11). -/
  | counter (id : Nat) (ticks : Nat)
  | external (id : Nat) (e : External)
  deriving DecidableEq, Repr

/-- The handle of a device. There is one CPU (60_exceptions R283). -/
inductive DeviceId where
  | cpu
  | dev (id : Nat)
  deriving DecidableEq, Repr

/-- An operation of the host (00_scope R7). -/
inductive HostCall where
  | tick
  | reset
  | irq
  | nmi
  | connect (id : DeviceId)
  | disconnect (id : DeviceId)
  | read (addr : Addr)
  | write (addr : Addr) (v : Byte)
  deriving DecidableEq, Repr

/-- What a host operation returned (20_memory R54, R56, R57). -/
inductive HostReply where
  | none
  | ok
  | notFound
  | byte (v : Byte)
  | sentinel
  deriving DecidableEq, Repr

/-- The machine: the CPU's registers and flags, its cycle budget, its transients and fault record, the
Bus's devices, and the host's side. -/
@[ext]
structure State where
  /-- Accumulator (10_state R22). -/
  a : Byte
  /-- Index register X (R23). -/
  x : Byte
  /-- Index register Y (R24). -/
  y : Byte
  /-- Stack pointer, an offset into page 1 (R25). -/
  sp : Byte
  /-- Program counter (R27). -/
  pc : Addr
  /-- The seven flags (R28). -/
  flags : Flags
  /-- Remaining-cycle counter (R30). -/
  budget : Nat
  /-- Effective address of the last dispatch (R31). -/
  ea : Addr
  /-- Addressing-mode tag of the last dispatch (R31). -/
  tag : Tag
  /-- The unknown-opcode record (R32). -/
  halted : Option Fault
  /-- Whether `reset()` was ever called (R38). -/
  everReset : Bool
  /-- The Bus's devices, most recently connected first (R34). -/
  devices : List Device
  /-- Devices that exist and are not connected (log 9). -/
  detached : List Device
  /-- The host's coming calls, the next one first; with none, the host calls `Bus.tick()` (log 5). -/
  calls : List HostCall
  /-- What the host's last read, write or disconnect returned (log 10). -/
  reply : HostReply
  /-- The named parameters; no step changes them (log 6). -/
  params : Params
  deriving DecidableEq, Repr

/-- Flat 64 KiB of RAM that claims every address and lists nothing (95 section 1, log 1). -/
def Ram.flat : Ram :=
  { lo := 0x0000, hi := 0xFFFF, capacity := 65536, fromWindow := false, onWrite := .stores, cells := [] }

/-- All seven flags zero. -/
def Flags.zero : Flags :=
  { n := false, v := false, b := false, d := false, i := false, z := false, c := false }

/-- The machine right after `reset()` (10_state R37, 70 R300), on the platform of log 1: the memory
lists nothing, so the two reset vector bytes read 0x00 and PC is 0x0000. -/
def State.reset : State :=
  { a := 0x00, x := 0x00, y := 0x00, sp := 0xFD, pc := 0x0000, flags := Flags.zero
    budget := Params.default.resetCycles, ea := 0x0000, tag := .implied, halted := none
    everReset := true, devices := [.cpu, .ram 0 Ram.flat], detached := [], calls := []
    reply := .none, params := Params.default }

/-- What a step answers. -/
abbrev Result := Host.Outcome State Fault Refusal

/-- What an instruction's operation answers: the state and whether it is eligible for the page-cross
cycle (40_execution_engine R132). -/
abbrev OpResult := Host.Outcome (State × Bool) Fault Refusal

/-- Write `a`. -/
def State.setA (s : State) (v : Byte) : State := { s with a := v }

/-- Write `x`. -/
def State.setX (s : State) (v : Byte) : State := { s with x := v }

/-- Write `y`. -/
def State.setY (s : State) (v : Byte) : State := { s with y := v }

/-- Write `sp`. -/
def State.setSp (s : State) (v : Byte) : State := { s with sp := v }

/-- Write `pc`. -/
def State.setPc (s : State) (v : Addr) : State := { s with pc := v }

/-- Write `flags`. -/
def State.setFlags (s : State) (v : Flags) : State := { s with flags := v }

/-- Write `budget`. -/
def State.setBudget (s : State) (v : Nat) : State := { s with budget := v }

/-- Write `ea`. -/
def State.setEa (s : State) (v : Addr) : State := { s with ea := v }

/-- Write `tag`. -/
def State.setTag (s : State) (v : Tag) : State := { s with tag := v }

/-- Write `halted`. -/
def State.setHalted (s : State) (v : Option Fault) : State := { s with halted := v }

/-- Write `everReset`. -/
def State.setEverReset (s : State) (v : Bool) : State := { s with everReset := v }

/-- Write `devices`. -/
def State.setDevices (s : State) (v : List Device) : State := { s with devices := v }

/-- Write `detached`. -/
def State.setDetached (s : State) (v : List Device) : State := { s with detached := v }

/-- Write `calls`. -/
def State.setCalls (s : State) (v : List HostCall) : State := { s with calls := v }

/-- Write `reply`. -/
def State.setReply (s : State) (v : HostReply) : State := { s with reply := v }

end Sys2Proof.Machine
end

