-- ==== Sys2Proof/Machine/Flags.lean ====
section
/-! DEFINITION. Flags and the status byte (40_execution_engine R143, R150, R151) and the results and
flags of the arithmetic, compare, bit-test and shift instructions (files 42 and 43). -/

namespace Sys2Proof.Machine

/-- `SetZN(v)`: Z from `v = 0`, N from bit 7 (R143). -/
def Flags.withZN (v : Byte) (f : Flags) : Flags := { f with z := decide (v = 0), n := v.getLsbD 7 }

/-- A flag at its place in the status byte. -/
def statusBit (b : Bool) (k : Nat) : Byte := if b then 1 <<< k else 0

/-- `PackStatus()`: bit 5 is always 1, bit 4 is the stored B (R150). -/
def packStatus (f : Flags) : Byte :=
  statusBit f.n 7 ||| statusBit f.v 6 ||| statusBit true 5 ||| statusBit f.b 4 |||
    statusBit f.d 3 ||| statusBit f.i 2 ||| statusBit f.z 1 ||| statusBit f.c 0

/-- `UnpackStatus(p)`: bits 5 and 4 are ignored and B is cleared (R151). -/
def unpackStatus (p : Byte) : Flags :=
  { n := p.getLsbD 7, v := p.getLsbD 6, b := false, d := p.getLsbD 3, i := p.getLsbD 2
    z := p.getLsbD 1, c := p.getLsbD 0 }

/-- The unmasked sum `A + m + C` (R190). -/
def addTotal (a m : Byte) (c : Bool) : Nat := a.toNat + m.toNat + c.toNat

/-- The 8-bit sum (R190). -/
def addResult (a m : Byte) (c : Bool) : Byte := BitVec.ofNat 8 (addTotal a m c)

/-- Overflow of an addition: `((~(A ^ m)) & (A ^ r))[7]` (R190). -/
def addOverflow (a m r : Byte) : Bool := (~~~(a ^^^ m) &&& (a ^^^ r)).getLsbD 7

/-- Flags of an addition (R190). -/
def adcFlags (a m : Byte) (f : Flags) : Flags :=
  let r := addResult a m f.c
  ({ f with c := decide (255 < addTotal a m f.c), v := addOverflow a m r }).withZN r

/-- The input of the addition that subtracts `m` (R191). -/
def sbcInput (m : Byte) : Byte := m ^^^ 0xFF

/-- The literal reading of the original overflow expression (R191, D7). -/
def sbcOverflowLiteral (a inp r : Byte) : Bool := ((r ^^^ a) &&& (r ^^^ inp)).getLsbD 0

/-- Flags of a subtraction: those of the addition of the inverted byte, with V by the literal formula
when `SBC_V_LITERAL` is true (R191). -/
def sbcFlags (literal : Bool) (a m : Byte) (f : Flags) : Flags :=
  let inp := sbcInput m
  let g := adcFlags a inp f
  if literal then { g with v := sbcOverflowLiteral a inp (addResult a inp f.c) } else g

/-- Flags of CMP, CPX and CPY of register `r` with `m` (R195 to R197). -/
def compareFlags (r m : Byte) (f : Flags) : Flags :=
  { f with c := decide (m.toNat ≤ r.toNat), z := decide (r = m), n := (r - m).getLsbD 7 }

/-- Flags of BIT (R198). -/
def bitFlags (a m : Byte) (f : Flags) : Flags :=
  { f with z := decide (a &&& m = 0), n := m.getLsbD 7, v := m.getLsbD 6 }

/-- Result and carry out of ASL (R210). -/
def aslParts (_c : Bool) (v : Byte) : Byte × Bool := (v <<< 1, v.getLsbD 7)

/-- Result and carry out of LSR (R211). -/
def lsrParts (_c : Bool) (v : Byte) : Byte × Bool := (v >>> 1, v.getLsbD 0)

/-- Result and carry out of ROL (R212). -/
def rolParts (c : Bool) (v : Byte) : Byte × Bool := (v <<< 1 ||| statusBit c 0, v.getLsbD 7)

/-- Result and carry out of ROR (R213). -/
def rorParts (c : Bool) (v : Byte) : Byte × Bool := (v >>> 1 ||| statusBit c 7, v.getLsbD 0)

/-- Flags of a shift or rotate with result and carry `p` (R214). -/
def shiftFlags (p : Byte × Bool) (f : Flags) : Flags := ({ f with c := p.2 }).withZN p.1

end Sys2Proof.Machine
end

