-- ==== Sys2Proof/Machine/Ops.lean ====
section
/-! DEFINITION. The named operations: a RAM's bytes, the devices, the Bus's read and write
(20_memory R52 to R62), the CPU's accesses (R60, R61), the stack (40_execution_engine R145 to R148),
entering an interrupt (60_exceptions R265) and returning from one (45 R253). -/

namespace Sys2Proof.Machine

/-! ## Bytes of a RAM -/

/-- What an index that is not listed reads as (log 2). -/
def unlistedByte : Byte := 0x00

/-- The byte at an index. -/
def Memory.get : Memory → Nat → Byte
  | [], _ => unlistedByte
  | (k, v) :: m, i => if k = i then v else Memory.get m i

/-- A cell in front of a memory, left out when it holds what an unlisted index reads as. -/
def Memory.cons (i : Nat) (v : Byte) (m : Memory) : Memory :=
  if v = unlistedByte then m else (i, v) :: m

/-- Write a byte at an index, keeping the canonical form. -/
def Memory.set : Memory → Nat → Byte → Memory
  | [], i, v => Memory.cons i v []
  | (k, w) :: m, i, v =>
    if i < k then Memory.cons i v ((k, w) :: m)
    else if i = k then Memory.cons i v m
    else (k, w) :: Memory.set m i v

/-- The canonical form from an index on: indexes strictly rising from at least `lo`, all below `hi`,
and no entry equal to what an unlisted index reads as. -/
def Memory.wfFrom (lo hi : Nat) : Memory → Bool
  | [] => true
  | (k, v) :: m => decide (lo ≤ k) && decide (k < hi) && decide (v ≠ unlistedByte) && Memory.wfFrom (k + 1) hi m

/-- The canonical form of a memory of a capacity. -/
def Memory.wf (capacity : Nat) (m : Memory) : Bool := Memory.wfFrom 0 capacity m

/-! ## Devices -/

/-- Whether an address is inside the window, bounds included (20_memory R69). -/
def Ram.claims (r : Ram) (addr : Addr) : Bool :=
  decide (r.lo.toNat ≤ addr.toNat) && decide (addr.toNat ≤ r.hi.toNat)

/-- The index of an address inside the window (20_memory R69, 93 U16). -/
def Ram.index (r : Ram) (addr : Addr) : Nat :=
  (if r.fromWindow then addr.toNat - r.lo.toNat else addr.toNat) % r.capacity

/-- A RAM device the model admits: it holds at least one byte and its memory is canonical. -/
def Ram.wf (r : Ram) : Bool := decide (0 < r.capacity) && r.cells.wf r.capacity

/-- The handle of a device. -/
def Device.handle : Device → DeviceId
  | .cpu => .cpu
  | .ram id _ => .dev id
  | .counter id _ => .dev id
  | .external id _ => .dev id

/-- A device's `read`: a byte, or none for `SENTINEL`, and the device afterwards (20_memory R52). A
device without the capability is skipped. -/
def Device.read (addr : Addr) : Device → Option Byte × Device
  | .ram id r => (if r.claims addr then some (Memory.get r.cells (r.index addr)) else none, .ram id r)
  | .external id e =>
    if e.canRead then
      let p := Config.extRead id e.state addr
      (p.1, .external id { e with state := p.2 })
    else (none, .external id e)
  | .counter id n => (none, .counter id n)
  | .cpu => (none, .cpu)

/-- A RAM's `write` inside its window (20_memory R69, R73). -/
def Ram.write (addr : Addr) (v : Byte) (r : Ram) : Bool × Ram :=
  match r.onWrite with
  | .stores => (true, { r with cells := Memory.set r.cells (r.index addr) v })
  | .declines => (false, r)
  | .ignores => (true, r)

/-- A device's `write`: accepted, or false for `SENTINEL`, and the device afterwards (R52, R57). -/
def Device.write (addr : Addr) (v : Byte) : Device → Bool × Device
  | .ram id r =>
    if r.claims addr then
      let p := r.write addr v
      (p.1, .ram id p.2)
    else (false, .ram id r)
  | .external id e =>
    if e.canWrite then
      let p := Config.extWrite id e.state addr v
      (p.1, .external id { e with state := p.2 })
    else (false, .external id e)
  | .counter id n => (false, .counter id n)
  | .cpu => (false, .cpu)

/-- The `tick` of a device that is not the CPU (R52, R55). -/
def Device.tick : Device → Device
  | .counter id n => .counter id (n + 1)
  | .external id e => if e.canTick then .external id { e with state := Config.extTick id e.state } else .external id e
  | .ram id r => .ram id r
  | .cpu => .cpu

/-! ## The Bus -/

/-- `Bus.read`: the first device that answers wins, and later devices are not asked (20_memory R56). -/
def busRead (addr : Addr) : List Device → Option Byte × List Device
  | [] => (none, [])
  | d :: ds =>
    let p := d.read addr
    match p.1 with
    | some v => (some v, p.2 :: ds)
    | none =>
      let q := busRead addr ds
      (q.1, p.2 :: q.2)

/-- `Bus.write`: the first device that accepts ends the iteration (20_memory R57). -/
def busWrite (addr : Addr) (v : Byte) : List Device → Bool × List Device
  | [] => (false, [])
  | d :: ds =>
    let p := d.write addr v
    if p.1 then (true, p.2 :: ds)
    else
      let q := busWrite addr v ds
      (q.1, p.2 :: q.2)

/-- The low 8 bits of `SENTINEL`: what the CPU sees when nobody answers (20_memory R58, R60). -/
def openBus : Byte := 0xFF

/-- `MemRead(addr, 1)`: the byte and the state after the access (20_memory R60). -/
def memRead (addr : Addr) (s : State) : Byte × State :=
  let p := busRead addr s.devices
  (p.1.getD openBus, s.setDevices p.2)

/-- `MemWrite(addr, 1, v)`: the answer is dropped, so a write nobody accepts is lost (R61). -/
def memWrite (addr : Addr) (v : Byte) (s : State) : State := s.setDevices (busWrite addr v s.devices).2

/-- Read a byte and go on with it. -/
def withRead {α : Type} (addr : Addr) (s : State) (k : Byte → State → α) : α :=
  k (memRead addr s).1 (memRead addr s).2

/-! ## Addresses -/

/-- `OffAddr`: the offset is added within the low byte and the page is kept (40_execution_engine R142,
20_memory R66). -/
def offAddr (ea : Addr) (off : Byte) : Addr :=
  (ea &&& 0xFF00) ||| ((ea + off.setWidth 16) &&& 0x00FF)

/-- Whether two addresses lie in different pages (30_encoding R109, 44 R223). -/
def pageDiffers (p q : Addr) : Bool := decide (p &&& 0xFF00 ≠ q &&& 0xFF00)

/-- A zero-page address (30_encoding R93). -/
def zeroPage (b : Byte) : Addr := b.setWidth 16

/-- `STACK_BASE` (00_scope R8). -/
def stackBase : Addr := 0x0100

/-- The stack location of a stack pointer (10_state R25). -/
def stackAddr (sp : Byte) : Addr := stackBase + sp.setWidth 16

/-- `SP_RESET` (00_scope R8). -/
def spReset : Byte := 0xFD

/-- `VEC_NMI` (00_scope R8, D1). -/
def vecNmi : Addr := 0xFFFA

/-- `VEC_RESET` (00_scope R8, D1). -/
def vecReset : Addr := 0xFFFC

/-- `VEC_IRQ`, also used by BRK (00_scope R8, D1). -/
def vecIrq : Addr := 0xFFFE

/-- Read the word at `p`, low byte first, the high byte from the same page, and go on with it
(30_encoding R105 to R107, 20_memory R65, R66). -/
def withPointer {α : Type} (p : Addr) (s : State) (k : Addr → State → α) : α :=
  withRead p s fun lo s => withRead (offAddr p 1) s fun hi s => k (word16 hi lo) s

/-- Read the two bytes of a vector, low byte first, and go on with the word (60_exceptions R265). -/
def withVector {α : Type} (vec : Addr) (s : State) (k : Addr → State → α) : α :=
  withRead vec s fun lo s => withRead (vec + 1) s fun hi s => k (word16 hi lo) s

/-! ## The stack -/

/-- `Push(v)`: write at SP, then decrement (40_execution_engine R145). -/
def push (v : Byte) (s : State) : State := (memWrite (stackAddr s.sp) v s).setSp (s.sp - 1)

/-- `Pull()`: increment SP, then read, and go on with the byte (R146). -/
def withPull {α : Type} (s : State) (k : Byte → State → α) : α :=
  withRead (stackAddr (s.sp + 1)) (s.setSp (s.sp + 1)) k

/-- `Push16(w)`: high byte first (R147). -/
def push16 (w : Addr) (s : State) : State := push (loByte w) (push (hiByte w) s)

/-- `Pull16()`: low byte first (R148). -/
def withPull16 {α : Type} (s : State) (k : Addr → State → α) : α :=
  withPull s fun lo s => withPull s fun hi s => k (word16 hi lo) s

/-! ## Entering an interrupt and returning from one -/

/-- The stored break flag. -/
def setB (v : Bool) (s : State) : State := s.setFlags { s.flags with b := v }

/-- The interrupt-disable flag. -/
def setI (v : Bool) (s : State) : State := s.setFlags { s.flags with i := v }

/-- The three pushes and the flag changes of `Interrupt`: PC high, PC low, I set, then the status with
the break flag the caller has set, then B cleared (60_exceptions R265). -/
def interruptFrame (s : State) : State :=
  let s1 := setI true (push16 s.pc s)
  setB false (push (packStatus s1.flags) s1)

/-- `Interrupt(vec)`, the one entry primitive (60_exceptions R265). -/
def interrupt (vec : Addr) (s : State) : State :=
  withVector vec (interruptFrame s) fun w s => s.setPc w

/-- The return: pull the status, then PC low byte first (45 R253, 60_exceptions R275). -/
def returnFromInterrupt (s : State) : State :=
  withPull s fun p s => withPull16 (s.setFlags (unpackStatus p)) fun w s => s.setPc w

end Sys2Proof.Machine
end

