-- ==== Sys2Proof/Machine/Operands.lean ====
section
/-! DEFINITION. The addressing-mode resolvers (30_encoding R96 to R109), `Load` and `Store`
(40_execution_engine R140, R141), and the frame of a dispatch around an operation (R132). -/

namespace Sys2Proof.Machine

/-- PC past `k` bytes, modulo 65536 (10_state R27). -/
def advance (k : Nat) (s : State) : State := s.setPc (s.pc + BitVec.ofNat 16 k)

/-- A resolver's end in Address mode: the tag and EA are set, and no page cross is reported. -/
def atAddress (ea : Addr) (s : State) : Bool × State := (false, (s.setTag .address).setEa ea)

/-- A resolver's end for an indexed base: the sum carries into the page, and the cross is reported
(R103, R104, R107, R109). -/
def atIndexed (base : Addr) (index : Byte) (s : State) : Bool × State :=
  let ea := base + index.setWidth 16
  (pageDiffers ea base, (s.setTag .address).setEa ea)

/-- A resolver's end with the operand byte itself: EA is its address (R98, R108). -/
def atOperandByte (v : Byte) (s : State) : Bool × State :=
  (false, advance 1 ((s.setTag (.immediate v)).setEa s.pc))

/-- `Resolve(mode)`: whether the effective address crossed a page, and the state with the tag, EA and
PC past the operand bytes. On entry PC is past the opcode (30_encoding R96 to R108). -/
def resolve : Operand → State → Bool × State
  | .imp, s => (false, s.setTag .implied)
  | .acc, s => (false, s.setTag .accumulator)
  | .imm v, s => atOperandByte v s
  | .zp p, s => atAddress (zeroPage p) (advance 1 s)
  | .zpx p, s => atAddress (zeroPage (p + s.x)) (advance 1 s)
  | .zpy p, s => atAddress (zeroPage (p + s.y)) (advance 1 s)
  | .abs w, s => atAddress w (advance 2 s)
  | .abx w, s => atIndexed w s.x (advance 2 s)
  | .aby w, s => atIndexed w s.y (advance 2 s)
  | .ind w, s => withPointer w (advance 2 s) atAddress
  | .izx p, s => withPointer (zeroPage (p + s.x)) (advance 1 s) atAddress
  | .izy p, s => withPointer (zeroPage p) (advance 1 s) fun base s => atIndexed base s.y s
  | .rel d, s => atOperandByte d s

/-- `Load(off)` by the tag, going on with the byte (R140). The byte at EA in Immediate mode is the one
the fetch has read (log 4). -/
def withLoad (off : Byte) (s : State) (k : Byte → State → OpResult) : OpResult :=
  match s.tag with
  | .accumulator => if off = 0 then k s.a s else .refused .accumulatorOffset
  | .immediate v => if off = 0 then k v s else withRead (offAddr s.ea off) s k
  | .address => withRead (offAddr s.ea off) s k
  | .implied => .refused .impliedOperand

/-- `Store(off, v)` by the tag, going on with the state (R141). -/
def withStore (off v : Byte) (s : State) (k : State → OpResult) : OpResult :=
  match s.tag with
  | .accumulator => if off = 0 then k (s.setA v) else .refused .accumulatorOffset
  | .immediate _ => k (memWrite (offAddr s.ea off) v s)
  | .address => k (memWrite (offAddr s.ea off) v s)
  | .implied => .refused .impliedOperand

/-- An operation that is done, not eligible for the page-cross cycle (R135). -/
def done (s : State) : OpResult := .next (s, false)

/-- An operation that is done and eligible for the page-cross cycle (R135). -/
def doneEligible (s : State) : OpResult := .next (s, true)

/-- `SetZN(v)` on the machine (R143). -/
def setZN (v : Byte) (s : State) : State := s.setFlags (s.flags.withZN v)

/-- One instruction after its fetch: PC past the opcode, the budget set to the base count, the
resolver, the operation, then one cycle taken off unless the page was crossed and the operation is
eligible (R131, R132). -/
def runInstr (base : Nat) (o : Operand) (op : State → OpResult) (s : State) : Result :=
  let r := resolve o ((advance 1 s).setBudget base)
  match op r.2 with
  | .next p => .next (if r.1 && p.2 then p.1 else p.1.setBudget (p.1.budget - 1))
  | .fault f => .fault f
  | .refused e => .refused e

end Sys2Proof.Machine
end

