-- ==== Sys2Proof/Machine/Arith.lean ====
section
/-! DEFINITION. Arithmetic, logic, compare, bit test, increment and decrement
(42_arithmetic_logic.md, R190 to R206). No operation reads D. -/

namespace Sys2Proof.Machine

/-- ADC (R190). -/
def opAdc (s : State) : OpResult :=
  withLoad 0 s fun m s => doneEligible ((s.setA (addResult s.a m s.flags.c)).setFlags (adcFlags s.a m s.flags))

/-- SBC (R191). -/
def opSbc (s : State) : OpResult :=
  withLoad 0 s fun m s =>
    doneEligible ((s.setA (addResult s.a (sbcInput m) s.flags.c)).setFlags
      (sbcFlags s.params.sbcVLiteral s.a m s.flags))

/-- A new accumulator with Z and N from it. -/
def setAccumulator (r : Byte) (s : State) : State := setZN r (s.setA r)

/-- AND (R192). -/
def opAnd (s : State) : OpResult := withLoad 0 s fun m s => doneEligible (setAccumulator (s.a &&& m) s)

/-- ORA (R193). -/
def opOra (s : State) : OpResult := withLoad 0 s fun m s => doneEligible (setAccumulator (s.a ||| m) s)

/-- EOR (R194). -/
def opEor (s : State) : OpResult := withLoad 0 s fun m s => doneEligible (setAccumulator (s.a ^^^ m) s)

/-- CMP (R195). -/
def opCmp (s : State) : OpResult :=
  withLoad 0 s fun m s => doneEligible (s.setFlags (compareFlags s.a m s.flags))

/-- CPX (R196). -/
def opCpx (s : State) : OpResult :=
  withLoad 0 s fun m s => doneEligible (s.setFlags (compareFlags s.x m s.flags))

/-- CPY (R197). -/
def opCpy (s : State) : OpResult :=
  withLoad 0 s fun m s => doneEligible (s.setFlags (compareFlags s.y m s.flags))

/-- BIT (R198). -/
def opBit (s : State) : OpResult :=
  withLoad 0 s fun m s => doneEligible (s.setFlags (bitFlags s.a m s.flags))

/-- INC (R199). -/
def opInc (s : State) : OpResult :=
  withLoad 0 s fun m s => withStore 0 (m + 1) s fun s => done (setZN (m + 1) s)

/-- DEC (R200). -/
def opDec (s : State) : OpResult :=
  withLoad 0 s fun m s => withStore 0 (m - 1) s fun s => done (setZN (m - 1) s)

/-- INX (R201). -/
def opInx (s : State) : OpResult := done (setZN (s.x + 1) (s.setX (s.x + 1)))

/-- INY (R202). -/
def opIny (s : State) : OpResult := done (setZN (s.y + 1) (s.setY (s.y + 1)))

/-- DEX (R203). -/
def opDex (s : State) : OpResult := done (setZN (s.x - 1) (s.setX (s.x - 1)))

/-- DEY (R204). -/
def opDey (s : State) : OpResult := done (setZN (s.y - 1) (s.setY (s.y - 1)))

/-- ADC IZX, opcode 61, base 6 (R190, R106). -/
def execAdcIzx (p : Byte) (s : State) : Result :=
  runInstr 6 (.izx p) opAdc s

/-- ADC ZP, opcode 65, base 3 (R190, R99). -/
def execAdcZp (p : Byte) (s : State) : Result :=
  runInstr 3 (.zp p) opAdc s

/-- ADC IMM, opcode 69, base 2 (R190, R98). -/
def execAdcImm (v : Byte) (s : State) : Result :=
  runInstr 2 (.imm v) opAdc s

/-- ADC ABS, opcode 6D, base 4 (R190, R102). -/
def execAdcAbs (w : Addr) (s : State) : Result :=
  runInstr 4 (.abs w) opAdc s

/-- ADC IZY, opcode 71, base 5+ (R190, R107). -/
def execAdcIzy (p : Byte) (s : State) : Result :=
  runInstr 5 (.izy p) opAdc s

/-- ADC ZPX, opcode 75, base 4 (R190, R100). -/
def execAdcZpx (p : Byte) (s : State) : Result :=
  runInstr 4 (.zpx p) opAdc s

/-- ADC ABY, opcode 79, base 4+ (R190, R104). -/
def execAdcAby (w : Addr) (s : State) : Result :=
  runInstr 4 (.aby w) opAdc s

/-- ADC ABX, opcode 7D, base 4+ (R190, R103). -/
def execAdcAbx (w : Addr) (s : State) : Result :=
  runInstr 4 (.abx w) opAdc s

/-- SBC IZX, opcode E1, base 6 (R191, R106). -/
def execSbcIzx (p : Byte) (s : State) : Result :=
  runInstr 6 (.izx p) opSbc s

/-- SBC ZP, opcode E5, base 3 (R191, R99). -/
def execSbcZp (p : Byte) (s : State) : Result :=
  runInstr 3 (.zp p) opSbc s

/-- SBC IMM, opcode E9, base 2 (R191, R98). -/
def execSbcImm (v : Byte) (s : State) : Result :=
  runInstr 2 (.imm v) opSbc s

/-- SBC ABS, opcode ED, base 4 (R191, R102). -/
def execSbcAbs (w : Addr) (s : State) : Result :=
  runInstr 4 (.abs w) opSbc s

/-- SBC IZY, opcode F1, base 5+ (R191, R107). -/
def execSbcIzy (p : Byte) (s : State) : Result :=
  runInstr 5 (.izy p) opSbc s

/-- SBC ZPX, opcode F5, base 4 (R191, R100). -/
def execSbcZpx (p : Byte) (s : State) : Result :=
  runInstr 4 (.zpx p) opSbc s

/-- SBC ABY, opcode F9, base 4+ (R191, R104). -/
def execSbcAby (w : Addr) (s : State) : Result :=
  runInstr 4 (.aby w) opSbc s

/-- SBC ABX, opcode FD, base 4+ (R191, R103). -/
def execSbcAbx (w : Addr) (s : State) : Result :=
  runInstr 4 (.abx w) opSbc s

/-- AND IZX, opcode 21, base 6 (R192, R106). -/
def execAndIzx (p : Byte) (s : State) : Result :=
  runInstr 6 (.izx p) opAnd s

/-- AND ZP, opcode 25, base 3 (R192, R99). -/
def execAndZp (p : Byte) (s : State) : Result :=
  runInstr 3 (.zp p) opAnd s

/-- AND IMM, opcode 29, base 2 (R192, R98). -/
def execAndImm (v : Byte) (s : State) : Result :=
  runInstr 2 (.imm v) opAnd s

/-- AND ABS, opcode 2D, base 4 (R192, R102). -/
def execAndAbs (w : Addr) (s : State) : Result :=
  runInstr 4 (.abs w) opAnd s

/-- AND IZY, opcode 31, base 5+ (R192, R107). -/
def execAndIzy (p : Byte) (s : State) : Result :=
  runInstr 5 (.izy p) opAnd s

/-- AND ZPX, opcode 35, base 4 (R192, R100). -/
def execAndZpx (p : Byte) (s : State) : Result :=
  runInstr 4 (.zpx p) opAnd s

/-- AND ABY, opcode 39, base 4+ (R192, R104). -/
def execAndAby (w : Addr) (s : State) : Result :=
  runInstr 4 (.aby w) opAnd s

/-- AND ABX, opcode 3D, base 4+ (R192, R103). -/
def execAndAbx (w : Addr) (s : State) : Result :=
  runInstr 4 (.abx w) opAnd s

/-- ORA IZX, opcode 01, base 6 (R193, R106). -/
def execOraIzx (p : Byte) (s : State) : Result :=
  runInstr 6 (.izx p) opOra s

/-- ORA ZP, opcode 05, base 3 (R193, R99). -/
def execOraZp (p : Byte) (s : State) : Result :=
  runInstr 3 (.zp p) opOra s

/-- ORA IMM, opcode 09, base 2 (R193, R98). -/
def execOraImm (v : Byte) (s : State) : Result :=
  runInstr 2 (.imm v) opOra s

/-- ORA ABS, opcode 0D, base 4 (R193, R102). -/
def execOraAbs (w : Addr) (s : State) : Result :=
  runInstr 4 (.abs w) opOra s

/-- ORA IZY, opcode 11, base 5+ (R193, R107). -/
def execOraIzy (p : Byte) (s : State) : Result :=
  runInstr 5 (.izy p) opOra s

/-- ORA ZPX, opcode 15, base 4 (R193, R100). -/
def execOraZpx (p : Byte) (s : State) : Result :=
  runInstr 4 (.zpx p) opOra s

/-- ORA ABY, opcode 19, base 4+ (R193, R104). -/
def execOraAby (w : Addr) (s : State) : Result :=
  runInstr 4 (.aby w) opOra s

/-- ORA ABX, opcode 1D, base 4+ (R193, R103). -/
def execOraAbx (w : Addr) (s : State) : Result :=
  runInstr 4 (.abx w) opOra s

/-- EOR IZX, opcode 41, base 6 (R194, R106). -/
def execEorIzx (p : Byte) (s : State) : Result :=
  runInstr 6 (.izx p) opEor s

/-- EOR ZP, opcode 45, base 3 (R194, R99). -/
def execEorZp (p : Byte) (s : State) : Result :=
  runInstr 3 (.zp p) opEor s

/-- EOR IMM, opcode 49, base 2 (R194, R98). -/
def execEorImm (v : Byte) (s : State) : Result :=
  runInstr 2 (.imm v) opEor s

/-- EOR ABS, opcode 4D, base 4 (R194, R102). -/
def execEorAbs (w : Addr) (s : State) : Result :=
  runInstr 4 (.abs w) opEor s

/-- EOR IZY, opcode 51, base 5+ (R194, R107). -/
def execEorIzy (p : Byte) (s : State) : Result :=
  runInstr 5 (.izy p) opEor s

/-- EOR ZPX, opcode 55, base 4 (R194, R100). -/
def execEorZpx (p : Byte) (s : State) : Result :=
  runInstr 4 (.zpx p) opEor s

/-- EOR ABY, opcode 59, base 4+ (R194, R104). -/
def execEorAby (w : Addr) (s : State) : Result :=
  runInstr 4 (.aby w) opEor s

/-- EOR ABX, opcode 5D, base 4+ (R194, R103). -/
def execEorAbx (w : Addr) (s : State) : Result :=
  runInstr 4 (.abx w) opEor s

/-- CMP IZX, opcode C1, base 6 (R195, R106). -/
def execCmpIzx (p : Byte) (s : State) : Result :=
  runInstr 6 (.izx p) opCmp s

/-- CMP ZP, opcode C5, base 3 (R195, R99). -/
def execCmpZp (p : Byte) (s : State) : Result :=
  runInstr 3 (.zp p) opCmp s

/-- CMP IMM, opcode C9, base 2 (R195, R98). -/
def execCmpImm (v : Byte) (s : State) : Result :=
  runInstr 2 (.imm v) opCmp s

/-- CMP ABS, opcode CD, base 4 (R195, R102). -/
def execCmpAbs (w : Addr) (s : State) : Result :=
  runInstr 4 (.abs w) opCmp s

/-- CMP IZY, opcode D1, base 5+ (R195, R107). -/
def execCmpIzy (p : Byte) (s : State) : Result :=
  runInstr 5 (.izy p) opCmp s

/-- CMP ZPX, opcode D5, base 4 (R195, R100). -/
def execCmpZpx (p : Byte) (s : State) : Result :=
  runInstr 4 (.zpx p) opCmp s

/-- CMP ABY, opcode D9, base 4+ (R195, R104). -/
def execCmpAby (w : Addr) (s : State) : Result :=
  runInstr 4 (.aby w) opCmp s

/-- CMP ABX, opcode DD, base 4+ (R195, R103). -/
def execCmpAbx (w : Addr) (s : State) : Result :=
  runInstr 4 (.abx w) opCmp s

/-- CPX IMM, opcode E0, base 2 (R196, R98). -/
def execCpxImm (v : Byte) (s : State) : Result :=
  runInstr 2 (.imm v) opCpx s

/-- CPX ZP, opcode E4, base 3 (R196, R99). -/
def execCpxZp (p : Byte) (s : State) : Result :=
  runInstr 3 (.zp p) opCpx s

/-- CPX ABS, opcode EC, base 4 (R196, R102). -/
def execCpxAbs (w : Addr) (s : State) : Result :=
  runInstr 4 (.abs w) opCpx s

/-- CPY IMM, opcode C0, base 2 (R197, R98). -/
def execCpyImm (v : Byte) (s : State) : Result :=
  runInstr 2 (.imm v) opCpy s

/-- CPY ZP, opcode C4, base 3 (R197, R99). -/
def execCpyZp (p : Byte) (s : State) : Result :=
  runInstr 3 (.zp p) opCpy s

/-- CPY ABS, opcode CC, base 4 (R197, R102). -/
def execCpyAbs (w : Addr) (s : State) : Result :=
  runInstr 4 (.abs w) opCpy s

/-- BIT ZP, opcode 24, base 3 (R198, R99). -/
def execBitZp (p : Byte) (s : State) : Result :=
  runInstr 3 (.zp p) opBit s

/-- BIT ABS, opcode 2C, base 4 (R198, R102). -/
def execBitAbs (w : Addr) (s : State) : Result :=
  runInstr 4 (.abs w) opBit s

/-- INC ZP, opcode E6, base 5 (R199, R99). -/
def execIncZp (p : Byte) (s : State) : Result :=
  runInstr 5 (.zp p) opInc s

/-- INC ABS, opcode EE, base 6 (R199, R102). -/
def execIncAbs (w : Addr) (s : State) : Result :=
  runInstr 6 (.abs w) opInc s

/-- INC ZPX, opcode F6, base 6 (R199, R100). -/
def execIncZpx (p : Byte) (s : State) : Result :=
  runInstr 6 (.zpx p) opInc s

/-- INC ABX, opcode FE, base 7 (R199, R103). -/
def execIncAbx (w : Addr) (s : State) : Result :=
  runInstr 7 (.abx w) opInc s

/-- DEC ZP, opcode C6, base 5 (R200, R99). -/
def execDecZp (p : Byte) (s : State) : Result :=
  runInstr 5 (.zp p) opDec s

/-- DEC ABS, opcode CE, base 6 (R200, R102). -/
def execDecAbs (w : Addr) (s : State) : Result :=
  runInstr 6 (.abs w) opDec s

/-- DEC ZPX, opcode D6, base 6 (R200, R100). -/
def execDecZpx (p : Byte) (s : State) : Result :=
  runInstr 6 (.zpx p) opDec s

/-- DEC ABX, opcode DE, base 7 (R200, R103). -/
def execDecAbx (w : Addr) (s : State) : Result :=
  runInstr 7 (.abx w) opDec s

/-- INX IMP, opcode E8, base 2 (R201, R96). -/
def execInx (s : State) : Result :=
  runInstr 2 .imp opInx s

/-- INY IMP, opcode C8, base 2 (R202, R96). -/
def execIny (s : State) : Result :=
  runInstr 2 .imp opIny s

/-- DEX IMP, opcode CA, base 2 (R203, R96). -/
def execDex (s : State) : Result :=
  runInstr 2 .imp opDex s

/-- DEY IMP, opcode 88, base 2 (R204, R96). -/
def execDey (s : State) : Result :=
  runInstr 2 .imp opDey s

end Sys2Proof.Machine
end

