-- ==== Sys2Proof/Machine/Control.lean ====
section
/-! DEFINITION. Jumps, subroutines and branches (44_control_flow.md, R220 to R232). -/

namespace Sys2Proof.Machine

/-- JMP (R220). -/
def opJmp (s : State) : OpResult := done (s.setPc s.ea)

/-- JSR: the address of its last byte is pushed (R221). -/
def opJsr (s : State) : OpResult := done ((push16 (s.pc - 1) s).setPc s.ea)

/-- RTS (R222). -/
def opRts (s : State) : OpResult := withPull16 s fun w s => done (s.setPc (w + 1))

/-- The target of a branch from the address after it: the displacement is sign-extended (R223). -/
def branchTarget (next : Addr) (d : Byte) : Addr := next + d.signExtend 16

/-- `Branch(cond)`: a taken branch costs one cycle, and one more to another page (R223,
40_execution_engine R136). -/
def branch (cond : Bool) (s : State) : OpResult :=
  withLoad 0 s fun d s =>
    if cond then
      let target := branchTarget s.pc d
      done ((s.setBudget (s.budget + 1 + (pageDiffers target s.pc).toNat)).setPc target)
    else done s

/-- BCC (R224). -/
def opBcc (s : State) : OpResult := branch (!s.flags.c) s

/-- BCS (R225). -/
def opBcs (s : State) : OpResult := branch s.flags.c s

/-- BEQ (R226). -/
def opBeq (s : State) : OpResult := branch s.flags.z s

/-- BNE (R227). -/
def opBne (s : State) : OpResult := branch (!s.flags.z) s

/-- BMI (R228). -/
def opBmi (s : State) : OpResult := branch s.flags.n s

/-- BPL (R229). -/
def opBpl (s : State) : OpResult := branch (!s.flags.n) s

/-- BVC (R230). -/
def opBvc (s : State) : OpResult := branch (!s.flags.v) s

/-- BVS (R231). -/
def opBvs (s : State) : OpResult := branch s.flags.v s

/-- JMP ABS, opcode 4C, base 3 (R220, R102). -/
def execJmpAbs (w : Addr) (s : State) : Result :=
  runInstr 3 (.abs w) opJmp s

/-- JMP IND, opcode 6C, base 5 (R220, R105). -/
def execJmpInd (w : Addr) (s : State) : Result :=
  runInstr 5 (.ind w) opJmp s

/-- JSR ABS, opcode 20, base 6 (R221, R102). -/
def execJsr (w : Addr) (s : State) : Result :=
  runInstr 6 (.abs w) opJsr s

/-- RTS IMP, opcode 60, base 6 (R222, R96). -/
def execRts (s : State) : Result :=
  runInstr 6 .imp opRts s

/-- BCC REL, opcode 90, base 2* (R224, R108). -/
def execBcc (d : Byte) (s : State) : Result :=
  runInstr 2 (.rel d) opBcc s

/-- BCS REL, opcode B0, base 2* (R225, R108). -/
def execBcs (d : Byte) (s : State) : Result :=
  runInstr 2 (.rel d) opBcs s

/-- BEQ REL, opcode F0, base 2* (R226, R108). -/
def execBeq (d : Byte) (s : State) : Result :=
  runInstr 2 (.rel d) opBeq s

/-- BNE REL, opcode D0, base 2* (R227, R108). -/
def execBne (d : Byte) (s : State) : Result :=
  runInstr 2 (.rel d) opBne s

/-- BMI REL, opcode 30, base 2* (R228, R108). -/
def execBmi (d : Byte) (s : State) : Result :=
  runInstr 2 (.rel d) opBmi s

/-- BPL REL, opcode 10, base 2* (R229, R108). -/
def execBpl (d : Byte) (s : State) : Result :=
  runInstr 2 (.rel d) opBpl s

/-- BVC REL, opcode 50, base 2* (R230, R108). -/
def execBvc (d : Byte) (s : State) : Result :=
  runInstr 2 (.rel d) opBvc s

/-- BVS REL, opcode 70, base 2* (R231, R108). -/
def execBvs (d : Byte) (s : State) : Result :=
  runInstr 2 (.rel d) opBvs s

end Sys2Proof.Machine
end

