-- ==== Sys2Proof/Machine/LoadStore.lean ====
section
/-! DEFINITION. Loads, stores and register transfers (41_load_store_transfer.md, R170 to R181). -/

namespace Sys2Proof.Machine

/-- LDA (R170). -/
def opLda (s : State) : OpResult := withLoad 0 s fun v s => doneEligible (setZN v (s.setA v))

/-- LDX (R171). -/
def opLdx (s : State) : OpResult := withLoad 0 s fun v s => doneEligible (setZN v (s.setX v))

/-- LDY (R172). -/
def opLdy (s : State) : OpResult := withLoad 0 s fun v s => doneEligible (setZN v (s.setY v))

/-- STA (R173). -/
def opSta (s : State) : OpResult := withStore 0 s.a s done

/-- STX (R174). -/
def opStx (s : State) : OpResult := withStore 0 s.x s done

/-- STY (R175). -/
def opSty (s : State) : OpResult := withStore 0 s.y s done

/-- TAX (R176). -/
def opTax (s : State) : OpResult := done (setZN s.a (s.setX s.a))

/-- TAY (R177). -/
def opTay (s : State) : OpResult := done (setZN s.a (s.setY s.a))

/-- TXA (R178). -/
def opTxa (s : State) : OpResult := done (setZN s.x (s.setA s.x))

/-- TYA (R179). -/
def opTya (s : State) : OpResult := done (setZN s.y (s.setA s.y))

/-- TSX (R180). -/
def opTsx (s : State) : OpResult := done (setZN s.sp (s.setX s.sp))

/-- TXS: no flag is written (R181). -/
def opTxs (s : State) : OpResult := done (s.setSp s.x)

/-- LDA IZX, opcode A1, base 6 (R170, R106). -/
def execLdaIzx (p : Byte) (s : State) : Result :=
  runInstr 6 (.izx p) opLda s

/-- LDA ZP, opcode A5, base 3 (R170, R99). -/
def execLdaZp (p : Byte) (s : State) : Result :=
  runInstr 3 (.zp p) opLda s

/-- LDA IMM, opcode A9, base 2 (R170, R98). -/
def execLdaImm (v : Byte) (s : State) : Result :=
  runInstr 2 (.imm v) opLda s

/-- LDA ABS, opcode AD, base 4 (R170, R102). -/
def execLdaAbs (w : Addr) (s : State) : Result :=
  runInstr 4 (.abs w) opLda s

/-- LDA IZY, opcode B1, base 5+ (R170, R107). -/
def execLdaIzy (p : Byte) (s : State) : Result :=
  runInstr 5 (.izy p) opLda s

/-- LDA ZPX, opcode B5, base 4 (R170, R100). -/
def execLdaZpx (p : Byte) (s : State) : Result :=
  runInstr 4 (.zpx p) opLda s

/-- LDA ABY, opcode B9, base 4+ (R170, R104). -/
def execLdaAby (w : Addr) (s : State) : Result :=
  runInstr 4 (.aby w) opLda s

/-- LDA ABX, opcode BD, base 4+ (R170, R103). -/
def execLdaAbx (w : Addr) (s : State) : Result :=
  runInstr 4 (.abx w) opLda s

/-- LDX IMM, opcode A2, base 2 (R171, R98). -/
def execLdxImm (v : Byte) (s : State) : Result :=
  runInstr 2 (.imm v) opLdx s

/-- LDX ZP, opcode A6, base 3 (R171, R99). -/
def execLdxZp (p : Byte) (s : State) : Result :=
  runInstr 3 (.zp p) opLdx s

/-- LDX ABS, opcode AE, base 4 (R171, R102). -/
def execLdxAbs (w : Addr) (s : State) : Result :=
  runInstr 4 (.abs w) opLdx s

/-- LDX ZPY, opcode B6, base 4 (R171, R101). -/
def execLdxZpy (p : Byte) (s : State) : Result :=
  runInstr 4 (.zpy p) opLdx s

/-- LDX ABY, opcode BE, base 4+ (R171, R104). -/
def execLdxAby (w : Addr) (s : State) : Result :=
  runInstr 4 (.aby w) opLdx s

/-- LDY IMM, opcode A0, base 2 (R172, R98). -/
def execLdyImm (v : Byte) (s : State) : Result :=
  runInstr 2 (.imm v) opLdy s

/-- LDY ZP, opcode A4, base 3 (R172, R99). -/
def execLdyZp (p : Byte) (s : State) : Result :=
  runInstr 3 (.zp p) opLdy s

/-- LDY ABS, opcode AC, base 4 (R172, R102). -/
def execLdyAbs (w : Addr) (s : State) : Result :=
  runInstr 4 (.abs w) opLdy s

/-- LDY ZPX, opcode B4, base 4 (R172, R100). -/
def execLdyZpx (p : Byte) (s : State) : Result :=
  runInstr 4 (.zpx p) opLdy s

/-- LDY ABX, opcode BC, base 4+ (R172, R103). -/
def execLdyAbx (w : Addr) (s : State) : Result :=
  runInstr 4 (.abx w) opLdy s

/-- STA IZX, opcode 81, base 6 (R173, R106). -/
def execStaIzx (p : Byte) (s : State) : Result :=
  runInstr 6 (.izx p) opSta s

/-- STA ZP, opcode 85, base 3 (R173, R99). -/
def execStaZp (p : Byte) (s : State) : Result :=
  runInstr 3 (.zp p) opSta s

/-- STA ABS, opcode 8D, base 4 (R173, R102). -/
def execStaAbs (w : Addr) (s : State) : Result :=
  runInstr 4 (.abs w) opSta s

/-- STA IZY, opcode 91, base 6 (R173, R107). -/
def execStaIzy (p : Byte) (s : State) : Result :=
  runInstr 6 (.izy p) opSta s

/-- STA ZPX, opcode 95, base 4 (R173, R100). -/
def execStaZpx (p : Byte) (s : State) : Result :=
  runInstr 4 (.zpx p) opSta s

/-- STA ABY, opcode 99, base 5 (R173, R104). -/
def execStaAby (w : Addr) (s : State) : Result :=
  runInstr 5 (.aby w) opSta s

/-- STA ABX, opcode 9D, base 5 (R173, R103). -/
def execStaAbx (w : Addr) (s : State) : Result :=
  runInstr 5 (.abx w) opSta s

/-- STX ZP, opcode 86, base 3 (R174, R99). -/
def execStxZp (p : Byte) (s : State) : Result :=
  runInstr 3 (.zp p) opStx s

/-- STX ABS, opcode 8E, base 4 (R174, R102). -/
def execStxAbs (w : Addr) (s : State) : Result :=
  runInstr 4 (.abs w) opStx s

/-- STX ZPY, opcode 96, base 4 (R174, R101). -/
def execStxZpy (p : Byte) (s : State) : Result :=
  runInstr 4 (.zpy p) opStx s

/-- STY ZP, opcode 84, base 3 (R175, R99). -/
def execStyZp (p : Byte) (s : State) : Result :=
  runInstr 3 (.zp p) opSty s

/-- STY ABS, opcode 8C, base 4 (R175, R102). -/
def execStyAbs (w : Addr) (s : State) : Result :=
  runInstr 4 (.abs w) opSty s

/-- STY ZPX, opcode 94, base 4 (R175, R100). -/
def execStyZpx (p : Byte) (s : State) : Result :=
  runInstr 4 (.zpx p) opSty s

/-- TAX IMP, opcode AA, base 2 (R176, R96). -/
def execTax (s : State) : Result :=
  runInstr 2 .imp opTax s

/-- TAY IMP, opcode A8, base 2 (R177, R96). -/
def execTay (s : State) : Result :=
  runInstr 2 .imp opTay s

/-- TXA IMP, opcode 8A, base 2 (R178, R96). -/
def execTxa (s : State) : Result :=
  runInstr 2 .imp opTxa s

/-- TYA IMP, opcode 98, base 2 (R179, R96). -/
def execTya (s : State) : Result :=
  runInstr 2 .imp opTya s

/-- TSX IMP, opcode BA, base 2 (R180, R96). -/
def execTsx (s : State) : Result :=
  runInstr 2 .imp opTsx s

/-- TXS IMP, opcode 9A, base 2 (R181, R96). -/
def execTxs (s : State) : Result :=
  runInstr 2 .imp opTxs s

end Sys2Proof.Machine
end

