-- ==== Sys2Proof/Machine/Shift.lean ====
section
/-! DEFINITION. Shifts and rotates by one bit, of the accumulator or of memory
(43_shift_rotate.md, R210 to R214). -/

namespace Sys2Proof.Machine

/-- Read the operand, write back the shifted byte, set C, Z and N; never eligible (R214). -/
def shiftWith (parts : Bool → Byte → Byte × Bool) (s : State) : OpResult :=
  withLoad 0 s fun v s =>
    withStore 0 (parts s.flags.c v).1 s fun t => done (t.setFlags (shiftFlags (parts s.flags.c v) s.flags))

/-- ASL (R210). -/
def opAsl (s : State) : OpResult := shiftWith aslParts s

/-- LSR (R211). -/
def opLsr (s : State) : OpResult := shiftWith lsrParts s

/-- ROL (R212). -/
def opRol (s : State) : OpResult := shiftWith rolParts s

/-- ROR (R213). -/
def opRor (s : State) : OpResult := shiftWith rorParts s

/-- ASL ZP, opcode 06, base 5 (R210, R99). -/
def execAslZp (p : Byte) (s : State) : Result :=
  runInstr 5 (.zp p) opAsl s

/-- ASL ACC, opcode 0A, base 2 (R210, R97). -/
def execAslAcc (s : State) : Result :=
  runInstr 2 .acc opAsl s

/-- ASL ABS, opcode 0E, base 6 (R210, R102). -/
def execAslAbs (w : Addr) (s : State) : Result :=
  runInstr 6 (.abs w) opAsl s

/-- ASL ZPX, opcode 16, base 6 (R210, R100). -/
def execAslZpx (p : Byte) (s : State) : Result :=
  runInstr 6 (.zpx p) opAsl s

/-- ASL ABX, opcode 1E, base 7 (R210, R103). -/
def execAslAbx (w : Addr) (s : State) : Result :=
  runInstr 7 (.abx w) opAsl s

/-- LSR ZP, opcode 46, base 5 (R211, R99). -/
def execLsrZp (p : Byte) (s : State) : Result :=
  runInstr 5 (.zp p) opLsr s

/-- LSR ACC, opcode 4A, base 2 (R211, R97). -/
def execLsrAcc (s : State) : Result :=
  runInstr 2 .acc opLsr s

/-- LSR ABS, opcode 4E, base 6 (R211, R102). -/
def execLsrAbs (w : Addr) (s : State) : Result :=
  runInstr 6 (.abs w) opLsr s

/-- LSR ZPX, opcode 56, base 6 (R211, R100). -/
def execLsrZpx (p : Byte) (s : State) : Result :=
  runInstr 6 (.zpx p) opLsr s

/-- LSR ABX, opcode 5E, base 7 (R211, R103). -/
def execLsrAbx (w : Addr) (s : State) : Result :=
  runInstr 7 (.abx w) opLsr s

/-- ROL ZP, opcode 26, base 5 (R212, R99). -/
def execRolZp (p : Byte) (s : State) : Result :=
  runInstr 5 (.zp p) opRol s

/-- ROL ACC, opcode 2A, base 2 (R212, R97). -/
def execRolAcc (s : State) : Result :=
  runInstr 2 .acc opRol s

/-- ROL ABS, opcode 2E, base 6 (R212, R102). -/
def execRolAbs (w : Addr) (s : State) : Result :=
  runInstr 6 (.abs w) opRol s

/-- ROL ZPX, opcode 36, base 6 (R212, R100). -/
def execRolZpx (p : Byte) (s : State) : Result :=
  runInstr 6 (.zpx p) opRol s

/-- ROL ABX, opcode 3E, base 7 (R212, R103). -/
def execRolAbx (w : Addr) (s : State) : Result :=
  runInstr 7 (.abx w) opRol s

/-- ROR ZP, opcode 66, base 5 (R213, R99). -/
def execRorZp (p : Byte) (s : State) : Result :=
  runInstr 5 (.zp p) opRor s

/-- ROR ACC, opcode 6A, base 2 (R213, R97). -/
def execRorAcc (s : State) : Result :=
  runInstr 2 .acc opRor s

/-- ROR ABS, opcode 6E, base 6 (R213, R102). -/
def execRorAbs (w : Addr) (s : State) : Result :=
  runInstr 6 (.abs w) opRor s

/-- ROR ZPX, opcode 76, base 6 (R213, R100). -/
def execRorZpx (p : Byte) (s : State) : Result :=
  runInstr 6 (.zpx p) opRor s

/-- ROR ABX, opcode 7E, base 7 (R213, R103). -/
def execRorAbx (w : Addr) (s : State) : Result :=
  runInstr 7 (.abx w) opRor s

end Sys2Proof.Machine
end

