-- ==== Sys2Proof/Machine/System.lean ====
section
/-! DEFINITION. Stack, flag and system instructions (45_stack_flags_system.md, R240 to R254). -/

namespace Sys2Proof.Machine

/-- PHA (R240). -/
def opPha (s : State) : OpResult := done (push s.a s)

/-- PLA (R241). -/
def opPla (s : State) : OpResult := withPull s fun v s => done (setZN v (s.setA v))

/-- PHP: the stored B is pushed (R242). -/
def opPhp (s : State) : OpResult := done (push (packStatus s.flags) s)

/-- PLP: B is cleared (R243). -/
def opPlp (s : State) : OpResult := withPull s fun p s => done (s.setFlags (unpackStatus p))

/-- CLC (R244). -/
def opClc (s : State) : OpResult := done (s.setFlags { s.flags with c := false })

/-- SEC (R245). -/
def opSec (s : State) : OpResult := done (s.setFlags { s.flags with c := true })

/-- CLI (R246). -/
def opCli (s : State) : OpResult := done (setI false s)

/-- SEI (R247). -/
def opSei (s : State) : OpResult := done (setI true s)

/-- CLD (R248). -/
def opCld (s : State) : OpResult := done (s.setFlags { s.flags with d := false })

/-- SED (R249). -/
def opSed (s : State) : OpResult := done (s.setFlags { s.flags with d := true })

/-- CLV (R250). -/
def opClv (s : State) : OpResult := done (s.setFlags { s.flags with v := false })

/-- NOP (R251). -/
def opNop (s : State) : OpResult := done s

/-- `BRK_PC_SKIP` as a number, 0 or 1 (00_scope R8, D8). -/
def brkSkip (s : State) : Addr := if s.params.brkPcSkip then 1 else 0

/-- BRK: set B, adjust PC by `BRK_PC_SKIP`, enter through the IRQ vector (R252). -/
def opBrk (s : State) : OpResult := done (interrupt vecIrq ((setB true s).setPc (s.pc + brkSkip s)))

/-- RTI (R253). -/
def opRti (s : State) : OpResult := done (returnFromInterrupt s)

/-- PHA IMP, opcode 48, base 3 (R240, R96). -/
def execPha (s : State) : Result :=
  runInstr 3 .imp opPha s

/-- PLA IMP, opcode 68, base 4 (R241, R96). -/
def execPla (s : State) : Result :=
  runInstr 4 .imp opPla s

/-- PHP IMP, opcode 08, base 3 (R242, R96). -/
def execPhp (s : State) : Result :=
  runInstr 3 .imp opPhp s

/-- PLP IMP, opcode 28, base 4 (R243, R96). -/
def execPlp (s : State) : Result :=
  runInstr 4 .imp opPlp s

/-- CLC IMP, opcode 18, base 2 (R244, R96). -/
def execClc (s : State) : Result :=
  runInstr 2 .imp opClc s

/-- SEC IMP, opcode 38, base 2 (R245, R96). -/
def execSec (s : State) : Result :=
  runInstr 2 .imp opSec s

/-- CLI IMP, opcode 58, base 2 (R246, R96). -/
def execCli (s : State) : Result :=
  runInstr 2 .imp opCli s

/-- SEI IMP, opcode 78, base 2 (R247, R96). -/
def execSei (s : State) : Result :=
  runInstr 2 .imp opSei s

/-- CLD IMP, opcode D8, base 2 (R248, R96). -/
def execCld (s : State) : Result :=
  runInstr 2 .imp opCld s

/-- SED IMP, opcode F8, base 2 (R249, R96). -/
def execSed (s : State) : Result :=
  runInstr 2 .imp opSed s

/-- CLV IMP, opcode B8, base 2 (R250, R96). -/
def execClv (s : State) : Result :=
  runInstr 2 .imp opClv s

/-- NOP IMP, opcode EA, base 2 (R251, R96). -/
def execNop (s : State) : Result :=
  runInstr 2 .imp opNop s

/-- BRK IMP, opcode 00, base 7 (R252, R96). -/
def execBrk (s : State) : Result :=
  runInstr 7 .imp opBrk s

/-- RTI IMP, opcode 40, base 6 (R253, R96). -/
def execRti (s : State) : Result :=
  runInstr 6 .imp opRti s

end Sys2Proof.Machine
end

