-- ==== Sys2Proof/Machine/Dispatch.lean ====
section
/-! DEFINITION. One arm per instruction (30_encoding R110). -/

namespace Sys2Proof.Machine

def exec (i : Instr) (s : State) : Host.Outcome State Fault Refusal :=
  match i with
  -- Loads, stores and register transfers (41_load_store_transfer.md)
  | .ldaIzx p => Sys2Proof.Machine.execLdaIzx p s
  | .ldaZp p => Sys2Proof.Machine.execLdaZp p s
  | .ldaImm v => Sys2Proof.Machine.execLdaImm v s
  | .ldaAbs w => Sys2Proof.Machine.execLdaAbs w s
  | .ldaIzy p => Sys2Proof.Machine.execLdaIzy p s
  | .ldaZpx p => Sys2Proof.Machine.execLdaZpx p s
  | .ldaAby w => Sys2Proof.Machine.execLdaAby w s
  | .ldaAbx w => Sys2Proof.Machine.execLdaAbx w s
  | .ldxImm v => Sys2Proof.Machine.execLdxImm v s
  | .ldxZp p => Sys2Proof.Machine.execLdxZp p s
  | .ldxAbs w => Sys2Proof.Machine.execLdxAbs w s
  | .ldxZpy p => Sys2Proof.Machine.execLdxZpy p s
  | .ldxAby w => Sys2Proof.Machine.execLdxAby w s
  | .ldyImm v => Sys2Proof.Machine.execLdyImm v s
  | .ldyZp p => Sys2Proof.Machine.execLdyZp p s
  | .ldyAbs w => Sys2Proof.Machine.execLdyAbs w s
  | .ldyZpx p => Sys2Proof.Machine.execLdyZpx p s
  | .ldyAbx w => Sys2Proof.Machine.execLdyAbx w s
  | .staIzx p => Sys2Proof.Machine.execStaIzx p s
  | .staZp p => Sys2Proof.Machine.execStaZp p s
  | .staAbs w => Sys2Proof.Machine.execStaAbs w s
  | .staIzy p => Sys2Proof.Machine.execStaIzy p s
  | .staZpx p => Sys2Proof.Machine.execStaZpx p s
  | .staAby w => Sys2Proof.Machine.execStaAby w s
  | .staAbx w => Sys2Proof.Machine.execStaAbx w s
  | .stxZp p => Sys2Proof.Machine.execStxZp p s
  | .stxAbs w => Sys2Proof.Machine.execStxAbs w s
  | .stxZpy p => Sys2Proof.Machine.execStxZpy p s
  | .styZp p => Sys2Proof.Machine.execStyZp p s
  | .styAbs w => Sys2Proof.Machine.execStyAbs w s
  | .styZpx p => Sys2Proof.Machine.execStyZpx p s
  | .tax => Sys2Proof.Machine.execTax s
  | .tay => Sys2Proof.Machine.execTay s
  | .txa => Sys2Proof.Machine.execTxa s
  | .tya => Sys2Proof.Machine.execTya s
  | .tsx => Sys2Proof.Machine.execTsx s
  | .txs => Sys2Proof.Machine.execTxs s
  -- Arithmetic, logic, compare, bit test, increment and decrement (42_arithmetic_logic.md)
  | .adcIzx p => Sys2Proof.Machine.execAdcIzx p s
  | .adcZp p => Sys2Proof.Machine.execAdcZp p s
  | .adcImm v => Sys2Proof.Machine.execAdcImm v s
  | .adcAbs w => Sys2Proof.Machine.execAdcAbs w s
  | .adcIzy p => Sys2Proof.Machine.execAdcIzy p s
  | .adcZpx p => Sys2Proof.Machine.execAdcZpx p s
  | .adcAby w => Sys2Proof.Machine.execAdcAby w s
  | .adcAbx w => Sys2Proof.Machine.execAdcAbx w s
  | .sbcIzx p => Sys2Proof.Machine.execSbcIzx p s
  | .sbcZp p => Sys2Proof.Machine.execSbcZp p s
  | .sbcImm v => Sys2Proof.Machine.execSbcImm v s
  | .sbcAbs w => Sys2Proof.Machine.execSbcAbs w s
  | .sbcIzy p => Sys2Proof.Machine.execSbcIzy p s
  | .sbcZpx p => Sys2Proof.Machine.execSbcZpx p s
  | .sbcAby w => Sys2Proof.Machine.execSbcAby w s
  | .sbcAbx w => Sys2Proof.Machine.execSbcAbx w s
  | .andIzx p => Sys2Proof.Machine.execAndIzx p s
  | .andZp p => Sys2Proof.Machine.execAndZp p s
  | .andImm v => Sys2Proof.Machine.execAndImm v s
  | .andAbs w => Sys2Proof.Machine.execAndAbs w s
  | .andIzy p => Sys2Proof.Machine.execAndIzy p s
  | .andZpx p => Sys2Proof.Machine.execAndZpx p s
  | .andAby w => Sys2Proof.Machine.execAndAby w s
  | .andAbx w => Sys2Proof.Machine.execAndAbx w s
  | .oraIzx p => Sys2Proof.Machine.execOraIzx p s
  | .oraZp p => Sys2Proof.Machine.execOraZp p s
  | .oraImm v => Sys2Proof.Machine.execOraImm v s
  | .oraAbs w => Sys2Proof.Machine.execOraAbs w s
  | .oraIzy p => Sys2Proof.Machine.execOraIzy p s
  | .oraZpx p => Sys2Proof.Machine.execOraZpx p s
  | .oraAby w => Sys2Proof.Machine.execOraAby w s
  | .oraAbx w => Sys2Proof.Machine.execOraAbx w s
  | .eorIzx p => Sys2Proof.Machine.execEorIzx p s
  | .eorZp p => Sys2Proof.Machine.execEorZp p s
  | .eorImm v => Sys2Proof.Machine.execEorImm v s
  | .eorAbs w => Sys2Proof.Machine.execEorAbs w s
  | .eorIzy p => Sys2Proof.Machine.execEorIzy p s
  | .eorZpx p => Sys2Proof.Machine.execEorZpx p s
  | .eorAby w => Sys2Proof.Machine.execEorAby w s
  | .eorAbx w => Sys2Proof.Machine.execEorAbx w s
  | .cmpIzx p => Sys2Proof.Machine.execCmpIzx p s
  | .cmpZp p => Sys2Proof.Machine.execCmpZp p s
  | .cmpImm v => Sys2Proof.Machine.execCmpImm v s
  | .cmpAbs w => Sys2Proof.Machine.execCmpAbs w s
  | .cmpIzy p => Sys2Proof.Machine.execCmpIzy p s
  | .cmpZpx p => Sys2Proof.Machine.execCmpZpx p s
  | .cmpAby w => Sys2Proof.Machine.execCmpAby w s
  | .cmpAbx w => Sys2Proof.Machine.execCmpAbx w s
  | .cpxImm v => Sys2Proof.Machine.execCpxImm v s
  | .cpxZp p => Sys2Proof.Machine.execCpxZp p s
  | .cpxAbs w => Sys2Proof.Machine.execCpxAbs w s
  | .cpyImm v => Sys2Proof.Machine.execCpyImm v s
  | .cpyZp p => Sys2Proof.Machine.execCpyZp p s
  | .cpyAbs w => Sys2Proof.Machine.execCpyAbs w s
  | .bitZp p => Sys2Proof.Machine.execBitZp p s
  | .bitAbs w => Sys2Proof.Machine.execBitAbs w s
  | .incZp p => Sys2Proof.Machine.execIncZp p s
  | .incAbs w => Sys2Proof.Machine.execIncAbs w s
  | .incZpx p => Sys2Proof.Machine.execIncZpx p s
  | .incAbx w => Sys2Proof.Machine.execIncAbx w s
  | .decZp p => Sys2Proof.Machine.execDecZp p s
  | .decAbs w => Sys2Proof.Machine.execDecAbs w s
  | .decZpx p => Sys2Proof.Machine.execDecZpx p s
  | .decAbx w => Sys2Proof.Machine.execDecAbx w s
  | .inx => Sys2Proof.Machine.execInx s
  | .iny => Sys2Proof.Machine.execIny s
  | .dex => Sys2Proof.Machine.execDex s
  | .dey => Sys2Proof.Machine.execDey s
  -- Shifts and rotates (43_shift_rotate.md)
  | .aslZp p => Sys2Proof.Machine.execAslZp p s
  | .aslAcc => Sys2Proof.Machine.execAslAcc s
  | .aslAbs w => Sys2Proof.Machine.execAslAbs w s
  | .aslZpx p => Sys2Proof.Machine.execAslZpx p s
  | .aslAbx w => Sys2Proof.Machine.execAslAbx w s
  | .lsrZp p => Sys2Proof.Machine.execLsrZp p s
  | .lsrAcc => Sys2Proof.Machine.execLsrAcc s
  | .lsrAbs w => Sys2Proof.Machine.execLsrAbs w s
  | .lsrZpx p => Sys2Proof.Machine.execLsrZpx p s
  | .lsrAbx w => Sys2Proof.Machine.execLsrAbx w s
  | .rolZp p => Sys2Proof.Machine.execRolZp p s
  | .rolAcc => Sys2Proof.Machine.execRolAcc s
  | .rolAbs w => Sys2Proof.Machine.execRolAbs w s
  | .rolZpx p => Sys2Proof.Machine.execRolZpx p s
  | .rolAbx w => Sys2Proof.Machine.execRolAbx w s
  | .rorZp p => Sys2Proof.Machine.execRorZp p s
  | .rorAcc => Sys2Proof.Machine.execRorAcc s
  | .rorAbs w => Sys2Proof.Machine.execRorAbs w s
  | .rorZpx p => Sys2Proof.Machine.execRorZpx p s
  | .rorAbx w => Sys2Proof.Machine.execRorAbx w s
  -- Jumps, subroutines and branches (44_control_flow.md)
  | .jmpAbs w => Sys2Proof.Machine.execJmpAbs w s
  | .jmpInd w => Sys2Proof.Machine.execJmpInd w s
  | .jsr w => Sys2Proof.Machine.execJsr w s
  | .rts => Sys2Proof.Machine.execRts s
  | .bcc d => Sys2Proof.Machine.execBcc d s
  | .bcs d => Sys2Proof.Machine.execBcs d s
  | .beq d => Sys2Proof.Machine.execBeq d s
  | .bne d => Sys2Proof.Machine.execBne d s
  | .bmi d => Sys2Proof.Machine.execBmi d s
  | .bpl d => Sys2Proof.Machine.execBpl d s
  | .bvc d => Sys2Proof.Machine.execBvc d s
  | .bvs d => Sys2Proof.Machine.execBvs d s
  -- Stack, flag and system instructions (45_stack_flags_system.md)
  | .pha => Sys2Proof.Machine.execPha s
  | .pla => Sys2Proof.Machine.execPla s
  | .php => Sys2Proof.Machine.execPhp s
  | .plp => Sys2Proof.Machine.execPlp s
  | .clc => Sys2Proof.Machine.execClc s
  | .sec => Sys2Proof.Machine.execSec s
  | .cli => Sys2Proof.Machine.execCli s
  | .sei => Sys2Proof.Machine.execSei s
  | .cld => Sys2Proof.Machine.execCld s
  | .sed => Sys2Proof.Machine.execSed s
  | .clv => Sys2Proof.Machine.execClv s
  | .nop => Sys2Proof.Machine.execNop s
  | .brk => Sys2Proof.Machine.execBrk s
  | .rti => Sys2Proof.Machine.execRti s

end Sys2Proof.Machine
end

