-- ==== Sys2Proof/Machine/Triggers.lean ====
section
/-! DEFINITION. The host's operations on the CPU (`reset`, `irq`, `nmi`: 70 R300, 60_exceptions R266,
R267) and on the Bus's device list (`connect`, `disconnect`: 20_memory R53, R54), and the machine as it is
constructed (10_state R34, R38). -/

namespace Sys2Proof.Machine

/-- `CPU.reset()` (70 R300): two reads and no write. EA and the tag are left as they are (log 3). -/
def cpuReset (s : State) : State :=
  withVector vecReset s fun w s =>
    { s with
      pc := w, a := 0x00, x := 0x00, y := 0x00, sp := spReset, flags := Flags.zero
      budget := s.params.resetCycles, halted := none, everReset := true }

/-- Clear B, enter through `vec`, and add the trigger's cost to the budget (60_exceptions R266, R267,
R271). -/
def trigger (vec : Addr) (cost : Nat) (s : State) : State :=
  let t := interrupt vec (setB false s)
  t.setBudget (t.budget + cost)

/-- `CPU.irq()`: nothing while halted or while I is set (R262, R266). -/
def irq (s : State) : State :=
  if s.halted.isSome || s.flags.i then s else trigger vecIrq s.params.irqCycles s

/-- `CPU.nmi()`: nothing while halted, otherwise always (R262, R267). -/
def nmi (s : State) : State :=
  if s.halted.isSome then s else trigger vecNmi s.params.nmiCycles s

/-- The machine as the host constructs it (70 R305): the Bus's list is empty (10_state R34), the CPU and
the devices `built` exist and none is connected (log 9), and the CPU was never reset. Its registers, flags,
budget, transients and record are unspecified (R38): whatever `u` holds, as are the parameters and the
host's coming calls. -/
def State.constructed (u : State) (built : List Device) : State :=
  { u with everReset := false, devices := [], detached := .cpu :: built, reply := .none }

/-- The devices without the one with this handle. -/
def dropDevice (id : DeviceId) (ds : List Device) : List Device :=
  ds.filter fun d => decide (d.handle ≠ id)

/-- The device with this handle. -/
def findDevice (id : DeviceId) (ds : List Device) : Option Device :=
  ds.find? fun d => decide (d.handle = id)

/-- `Bus.connect(device)`: the device goes to the head (20_memory R53). -/
def connect (id : DeviceId) (s : State) : Result :=
  match findDevice id s.devices with
  | some _ => .refused .deviceAlreadyConnected
  | none =>
    match findDevice id s.detached with
    | none => .refused .noSuchDevice
    | some d => .next ((s.setDevices (d :: s.devices)).setDetached (dropDevice id s.detached))

/-- `Bus.disconnect(device)`: the device is removed, or `NotFound` is returned and nothing changes
(20_memory R54). -/
def disconnect (id : DeviceId) (s : State) : State :=
  match findDevice id s.devices with
  | none => s.setReply .notFound
  | some d =>
    ((s.setDevices (dropDevice id s.devices)).setDetached (d :: s.detached)).setReply .ok

/-- The host's `Bus.read(addr)`: a byte or `SENTINEL` (20_memory R56, R58). -/
def hostRead (addr : Addr) (s : State) : State :=
  let p := busRead addr s.devices
  (s.setDevices p.2).setReply (match p.1 with | some v => .byte v | none => .sentinel)

/-- The host's `Bus.write(addr, byte)`: `ok` or `SENTINEL` (20_memory R57). -/
def hostWrite (addr : Addr) (v : Byte) (s : State) : State :=
  let p := busWrite addr v s.devices
  (s.setDevices p.2).setReply (if p.1 then .ok else .sentinel)

end Sys2Proof.Machine
end

