-- ==== Sys2Proof/Machine/Engine.lean ====
section
/-! DEFINITION. The engine: fetching an instruction's bytes, `CPU.tick` (40_execution_engine R130,
R131), `Bus.tick` (20_memory R55) and the host's calls; and placing an instruction where the next
fetch finds it. -/

namespace Sys2Proof.Machine

/-- Read `n` bytes at ascending addresses, modulo 65536 (30_encoding R90, R94). -/
def readBytes (addr : Addr) : Nat → State → List Byte × State
  | 0, s => ([], s)
  | n + 1, s =>
    let p := memRead addr s
    let q := readBytes (addr + 1) n p.2
    (p.1 :: q.1, q.2)

/-- Fetch the opcode at PC and, when it is defined, its operand bytes: the opcode, what the bytes
decode to, and the state after the reads (R131, 30_encoding R120, 20_memory R68). -/
def fetch (s : State) : Byte × Decoded × State :=
  let p := memRead s.pc s
  let q := readBytes (s.pc + 1) (operandCount p.1) p.2
  (p.1, decode (p.1 :: q.1), q.2)

/-- `raise UnknownOpcode(pc, opcode)`: PC is the address of the opcode byte and nothing else changes
(60_exceptions R260). -/
def raiseUnknownOpcode (opcode : Byte) (s : State) : State :=
  s.setHalted (some (.unknownOpcode s.pc opcode))

/-- `Dispatch()`: one whole instruction, or the unknown-opcode fault (R131 to R133). -/
def dispatch (s : State) : Result :=
  let f := fetch s
  match f.2.1 with
  | .ok i _ => exec i f.2.2
  | .rejected _ => .next (raiseUnknownOpcode f.1 f.2.2)

/-- `CPU.tick()`: nothing while halted, a waiting tick while the budget is positive, otherwise a
dispatch (R130, 60_exceptions R261). A CPU that was never reset has no tick (10_state R38). -/
def cpuTick (s : State) : Result :=
  if s.everReset then
    match s.halted, s.budget with
    | some _, _ => .next s
    | none, k + 1 => .next (s.setBudget k)
    | none, 0 => dispatch s
  else .refused .neverReset

/-- The tick of the attached device with a handle that is not the CPU's. -/
def deviceTick (id : DeviceId) (s : State) : State :=
  s.setDevices (s.devices.map fun d => if d.handle = id then d.tick else d)

/-- The tick of one device of the list. -/
def tickOne (id : DeviceId) (s : State) : Result :=
  match id with
  | .cpu => cpuTick s
  | .dev k => .next (deviceTick (.dev k) s)

/-- The ticks of a list of devices, in order. -/
def tickEach : List DeviceId → State → Result
  | [], s => .next s
  | id :: ids, s =>
    match tickOne id s with
    | .next t => tickEach ids t
    | .fault f => .fault f
    | .refused e => .refused e

/-- `Bus.tick()`: every connected device, in collection order (20_memory R55). -/
def busTick (s : State) : Result := tickEach (s.devices.map Device.handle) s

/-- A trigger of a CPU that was never reset is refused (10_state R38). -/
def afterReset (f : State → State) (s : State) : Result :=
  if s.everReset then .next (f s) else .refused .neverReset

/-- One operation of the host (00_scope R7). -/
def hostCall : HostCall → State → Result
  | .tick, s => busTick s
  | .reset, s => .next (cpuReset s)
  | .irq, s => afterReset irq s
  | .nmi, s => afterReset nmi s
  | .connect id, s => connect id s
  | .disconnect id, s => .next (disconnect id s)
  | .read addr, s => .next (hostRead addr s)
  | .write addr v, s => .next (hostWrite addr v s)

/-- The next thing that happens: the host's next call, or its duty, one `Bus.tick()` (70 R305,
log 5). -/
def advanceMachine (s : State) : Result :=
  match s.calls with
  | [] => busTick s
  | call :: calls => hostCall call (s.setCalls calls)

/-! ## Placing an instruction -/

/-- A number no device of the list has. -/
def freshNumber : List Device → Nat
  | [] => 0
  | .cpu :: ds => freshNumber ds
  | .ram id _ :: ds => id + 1 + freshNumber ds
  | .counter id _ :: ds => id + 1 + freshNumber ds
  | .external id _ :: ds => id + 1 + freshNumber ds

/-- Put a byte into the RAM or ROM a read of the address reaches; where none claims it, connect a flat
RAM last, under the number `n` (log 11). -/
def placeByte (n : Nat) (addr : Addr) (v : Byte) : List Device → List Device
  | [] => [.ram n { Ram.flat with cells := Memory.set [] addr.toNat v }]
  | .ram id r :: ds =>
    if r.claims addr then .ram id { r with cells := Memory.set r.cells (r.index addr) v } :: ds
    else .ram id r :: placeByte n addr v ds
  | .cpu :: ds => .cpu :: placeByte n addr v ds
  | .counter id k :: ds => .counter id k :: placeByte n addr v ds
  | .external id e :: ds => .external id e :: placeByte n addr v ds

/-- Put bytes at ascending addresses, modulo 65536. -/
def placeBytes (n : Nat) : Addr → List Byte → List Device → List Device
  | _, [], ds => ds
  | addr, v :: vs, ds => placeBytes n (addr + 1) vs (placeByte n addr v ds)

/-- The CPU at the head, unless it is connected. -/
def withCpu (ds : List Device) : List Device :=
  match findDevice .cpu ds with
  | some _ => ds
  | none => .cpu :: ds

/-- The machine with these bytes at PC, about to dispatch: the CPU connected and reset, not halted, no
cycle left to wait out and no host call ahead of the tick (log 11). -/
def placeInstruction (bytes : List Byte) (s : State) : State :=
  { s with
    devices := placeBytes (freshNumber (s.devices ++ s.detached)) s.pc bytes (withCpu s.devices)
    detached := dropDevice .cpu s.detached
    budget := 0, halted := none, everReset := true, calls := [] }

end Sys2Proof.Machine
end

