-- ==== Sys2Proof/Machine/Step.lean ====
section
/-! DEFINITION. The step: the host's next call, or one `Bus.tick()` (40_execution_engine R130,
20_memory R55); and the placing of one instruction where the next step fetches it. -/

namespace Sys2Proof.Machine

/-- One step of the machine. -/
def step (s : State) : Host.Outcome State Fault Refusal := advanceMachine s

/-- The state with the instruction of `nbits` bits `w` stored at PC, so that the next step runs it
(log 11). -/
def State.withFetchWord (s : State) (nbits w : Nat) : State := placeInstruction (tableBytes nbits w) s

end Sys2Proof.Machine
end

