-- ==== Sys2Proof/Safety.lean ====
section
/-! DEFINITION. The terms the statements are written in: what a safe state is, reading a byte without
running, the cell an address reaches, the effect of an instruction in numbers (the addresses of
30_encoding R96 to R108, the cycles of 70 R321, the status byte of 10_state R29), and the invariant. -/

namespace Sys2Proof.Machine

/-! ## Safe runs -/

/-- A state that is not the end of a run by fault: the CPU has no unknown-opcode record
(60_exceptions R261: reaching such a record is never progress). -/
def State.running (s : State) : Bool := s.halted.isNone

/-- Between two instructions of a running CPU that was reset, with no host call ahead: the next step
dispatches (60_exceptions R272, 40_execution_engine R130). -/
def State.atDispatch (s : State) : Bool :=
  s.everReset && s.running && decide (s.budget = 0) && s.calls.isEmpty

/-- So many steps, one after the other; a fault or a refusal ends them. -/
def stepTimes : Nat → State → Result
  | 0, s => .next s
  | n + 1, s =>
    match step s with
    | .next t => stepTimes n t
    | .fault f => .fault f
    | .refused e => .refused e

/-! ## Reading and storing bytes -/

/-- The byte the CPU would read at an address now (20_memory R60). -/
def State.peek (s : State) (addr : Addr) : Byte := (memRead addr s).1

/-- The byte at a numeric address below 65536. -/
def State.peekNat (s : State) (addr : Nat) : Nat := (s.peek (BitVec.ofNat 16 addr)).toNat

/-- A device whose behaviour the spec describes. -/
def Device.isQuiet : Device → Bool
  | .cpu => true
  | .ram _ _ => true
  | .counter _ _ => true
  | .external _ _ => false

/-- No connected device is of unknown behaviour (log 7). -/
def State.quiet (s : State) : Bool := s.devices.all Device.isQuiet

/-- No device ticks but the CPU, which is connected once. -/
def State.onlyCpuTicks (s : State) : Bool :=
  decide ((s.devices.filter fun d => decide (d = .cpu)).length = 1) &&
    s.devices.all fun d =>
      match d with
      | .cpu => true
      | .ram _ _ => true
      | .counter _ _ => false
      | .external _ e => !e.canTick

/-- The connected RAM and ROM devices hold canonical memories. -/
def Device.wf : Device → Bool
  | .ram _ r => r.wf
  | .cpu => true
  | .counter _ _ => true
  | .external _ _ => true

/-- Every connected RAM is well formed. -/
def State.busWf (s : State) : Bool := s.devices.all Device.wf

/-- A bus the spec describes in full: every connected device is of described behaviour, and every RAM
is well formed. -/
def State.plain (s : State) : Bool := s.quiet && s.busWf

/-- The cell of the device list further on. -/
def nextCell : Nat × Nat → Nat × Nat := fun p => (p.1 + 1, p.2)

/-- The cell a read of an address reaches: the position in the list of the first RAM or ROM that
claims it, and the index there (20_memory R56, R69). -/
def readCell (addr : Addr) : List Device → Option (Nat × Nat)
  | [] => none
  | .ram _ r :: ds => if r.claims addr then some (0, r.index addr) else (readCell addr ds).map nextCell
  | .cpu :: ds => (readCell addr ds).map nextCell
  | .counter _ _ :: ds => (readCell addr ds).map nextCell
  | .external _ _ :: ds => (readCell addr ds).map nextCell

/-- The cell a write to an address reaches: a ROM that declines is passed, one that ignores the byte
ends the search with no cell (20_memory R57, R73). -/
def writeCell (addr : Addr) : List Device → Option (Nat × Nat)
  | [] => none
  | .ram _ r :: ds =>
    if r.claims addr then
      match r.onWrite with
      | .stores => some (0, r.index addr)
      | .ignores => none
      | .declines => (writeCell addr ds).map nextCell
    else (writeCell addr ds).map nextCell
  | .cpu :: ds => (writeCell addr ds).map nextCell
  | .counter _ _ :: ds => (writeCell addr ds).map nextCell
  | .external _ _ :: ds => (writeCell addr ds).map nextCell

/-- A byte stored at `target` is the one a read of `addr` gives. -/
def State.reaches (s : State) (target addr : Addr) : Bool :=
  (writeCell target s.devices).isSome && decide (readCell addr s.devices = writeCell target s.devices)

/-- The byte read at an address after stores, the latest first: the latest store that reaches it, or
the byte as before. A mirrored window shows one cell at several addresses. -/
def State.peekAfter (s : State) : List (Addr × Byte) → Addr → Byte
  | [], addr => s.peek addr
  | (target, v) :: earlier, addr => if s.reaches target addr then v else s.peekAfter earlier addr

/-- The stores are the only change of memory. -/
def MemoryAfter (s t : State) (stores : List (Addr × Byte)) : Prop :=
  ∀ addr, t.peek addr = s.peekAfter stores addr

/-- The device list after stores made on the Bus, the latest first: each goes to the first device that
accepts it (20_memory R57), also where no read reaches the byte. -/
def State.devicesAfter (s : State) : List (Addr × Byte) → List Device
  | [] => s.devices
  | (target, v) :: earlier => (busWrite target v (s.devicesAfter earlier)).2

/-- The stack addresses hold what is pushed: each is read where it is written, in cells of their
own (70 R306). -/
def State.backs (s : State) (addrs : List Addr) : Bool :=
  addrs.all (fun a => s.reaches a a) && decide ((addrs.map fun a => readCell a s.devices).Nodup)

/-- A device but for the bytes of a RAM. -/
def Device.withoutCells : Device → Device
  | .ram id r => .ram id { r with cells := [] }
  | .cpu => .cpu
  | .counter id n => .counter id n
  | .external id e => .external id e

/-- The bytes of the RAM and ROM devices, by handle. -/
def ramContents : List Device → List (Nat × Memory)
  | [] => []
  | .ram id r :: ds => (id, r.cells) :: ramContents ds
  | .cpu :: ds => ramContents ds
  | .counter _ _ :: ds => ramContents ds
  | .external _ _ :: ds => ramContents ds

/-- What no instruction touches: the fault record, the host's side and the parameters. -/
def SameHostSide (s t : State) : Prop :=
  t.halted = s.halted ∧ t.everReset = s.everReset ∧ t.detached = s.detached ∧ t.calls = s.calls ∧
    t.reply = s.reply ∧ t.params = s.params

/-! ## Addresses in numbers -/

/-- The numeric address of the next byte in the same page (20_memory R66). -/
def samePageNext (p : Nat) : Nat := p - p % 256 + (p % 256 + 1) % 256

/-- The word at a pointer: low byte at `p`, high byte at the next address of the page. -/
def State.pointerNat (s : State) (p : Nat) : Nat := s.peekNat p + 256 * s.peekNat (samePageNext p)

end Sys2Proof.Machine

namespace Sys2Proof

open Machine

/-- The un-indexed base of the modes that can cross a page (30_encoding R103, R104, R107). -/
def Operand.base (s : State) : Operand → Option (Nat × Byte)
  | .abx w => some (w.toNat, s.x)
  | .aby w => some (w.toNat, s.y)
  | .izy p => some (s.pointerNat p.toNat, s.y)
  | .imp | .acc | .imm _ | .zp _ | .zpx _ | .zpy _ | .abs _ | .ind _ | .izx _ | .rel _ => none

/-- The effective address of an operand (30_encoding R96 to R108); the modes without one leave EA. -/
def Operand.address (s : State) : Operand → Nat
  | .imp => s.ea.toNat
  | .acc => s.ea.toNat
  | .imm _ => (s.pc.toNat + 1) % 65536
  | .zp p => p.toNat
  | .zpx p => (p.toNat + s.x.toNat) % 256
  | .zpy p => (p.toNat + s.y.toNat) % 256
  | .abs w => w.toNat
  | .abx w => (w.toNat + s.x.toNat) % 65536
  | .aby w => (w.toNat + s.y.toNat) % 65536
  | .ind w => s.pointerNat w.toNat
  | .izx p => s.pointerNat ((p.toNat + s.x.toNat) % 256)
  | .izy p => (s.pointerNat p.toNat + s.y.toNat) % 65536
  | .rel _ => (s.pc.toNat + 1) % 65536

/-- The effective address as an address. -/
def Operand.target (s : State) (o : Operand) : Addr := BitVec.ofNat 16 (o.address s)

/-- The tag a mode sets (30_encoding R92). -/
def Operand.tag : Operand → Tag
  | .imp => .implied
  | .acc => .accumulator
  | .imm v => .immediate v
  | .rel d => .immediate d
  | .zp _ | .zpx _ | .zpy _ | .abs _ | .abx _ | .aby _ | .ind _ | .izx _ | .izy _ => .address

/-- Whether the address crosses a page: its high byte differs from the base's (30_encoding R109). -/
def Operand.crosses (s : State) (o : Operand) : Bool :=
  match o.base s with
  | some (b, k) => decide ((b + k.toNat) % 65536 / 256 ≠ b / 256)
  | none => false

/-- The operand byte of an instruction that reads one (40_execution_engine R140). -/
def Operand.value (s : State) (o : Operand) : Byte :=
  match o with
  | .acc => s.a
  | .imm v => v
  | .rel d => d
  | .imp | .zp _ | .zpx _ | .zpy _ | .abs _ | .abx _ | .aby _ | .ind _ | .izx _ | .izy _ => s.peek (o.target s)

/-- The stores of an instruction that writes a byte to its operand: none in accumulator mode. -/
def Operand.stores (s : State) (o : Operand) (v : Byte) : List (Addr × Byte) :=
  match o with
  | .acc => []
  | .imp | .imm _ | .rel _ | .zp _ | .zpx _ | .zpy _ | .abs _ | .abx _ | .aby _ | .ind _ | .izx _ | .izy _ =>
    [(o.target s, v)]

end Sys2Proof

namespace Sys2Proof.Machine

/-- The stack address `0x0100 + ((SP - k) & 0xFF)` (10_state R25). -/
def State.stackDown (s : State) (k : Nat) : Addr := BitVec.ofNat 16 (256 + (s.sp.toNat + 256 - k) % 256)

/-- The stack address `0x0100 + ((SP + k) & 0xFF)`. -/
def State.stackUp (s : State) (k : Nat) : Addr := BitVec.ofNat 16 (256 + (s.sp.toNat + k) % 256)

/-- The address `k` bytes after PC, modulo 65536. -/
def State.pcPlus (s : State) (k : Nat) : Addr := BitVec.ofNat 16 (s.pc.toNat + k)

/-! ## Flags in numbers -/

/-- Z and N of a result (40_execution_engine R143). -/
def Flags.ofResult (v : Byte) (f : Flags) : Flags := { f with z := decide (v.toNat = 0), n := decide (128 ≤ v.toNat) }

/-- The packed status as a number (10_state R29, 40_execution_engine R150). -/
def statusNat (f : Flags) : Nat :=
  128 * f.n.toNat + 64 * f.v.toNat + 32 + 16 * f.b.toNat + 8 * f.d.toNat + 4 * f.i.toNat + 2 * f.z.toNat + f.c.toNat

/-- The packed status as a byte. -/
def statusByte (f : Flags) : Byte := BitVec.ofNat 8 (statusNat f)

/-- Bit `k` of a byte, by division. -/
def bitOf (p : Byte) (k : Nat) : Bool := decide (p.toNat / 2 ^ k % 2 = 1)

/-- The flags a pulled status byte gives: bits 5 and 4 ignored, B cleared (R151). -/
def statusFlags (p : Byte) : Flags :=
  { n := bitOf p 7, v := bitOf p 6, b := false, d := bitOf p 3, i := bitOf p 2, z := bitOf p 1, c := bitOf p 0 }

end Sys2Proof.Machine

namespace Sys2Proof

open Machine

/-! ## Cycles -/

/-- The operations that only read their operand: eligible for the page-cross cycle
(40_execution_engine R135). -/
def Op.isRead (o : Op) : Bool :=
  [Op.lda, .ldx, .ldy, .adc, .sbc, .and, .ora, .eor, .cmp, .cpx, .cpy, .bit].contains o

/-- The stores. -/
def Op.isStore (o : Op) : Bool := [Op.sta, .stx, .sty].contains o

/-- The eight branches. -/
def Op.isBranch (o : Op) : Bool := [Op.bcc, .bcs, .beq, .bne, .bmi, .bpl, .bvc, .bvs].contains o

/-- The read-modify-write operations. -/
def Op.isModify (o : Op) : Bool := [Op.asl, .lsr, .rol, .ror, .inc, .dec].contains o

/-- Base ticks of an instruction by class and mode (70 R321). -/
def Op.ticks (o : Op) (m : Mode) : Nat :=
  match o with
  | .pha | .php => 3
  | .pla | .plp => 4
  | .jsr | .rts | .rti => 6
  | .brk => 7
  | .jmp => if m = .ind then 5 else 3
  | _ =>
    match m with
    | .imp | .acc | .imm | .rel => 2
    | .zp => if o.isModify then 5 else 3
    | .zpx | .zpy => if o.isModify then 6 else 4
    | .abs => if o.isModify then 6 else 4
    | .abx | .aby => if o.isModify then 7 else if o.isStore then 5 else 4
    | .izx => 6
    | .izy => if o.isStore then 6 else 5
    | .ind => 5

/-- The extra tick of a read whose address crosses a page (R132, R135). -/
def Instr.crossTicks (s : State) (i : Instr) : Nat := (i.op.isRead && i.operand.crosses s).toNat

end Sys2Proof

namespace Sys2Proof.Machine

/-! ## Effects -/

/-- What an operation leaves: every register and flag, the budget, the transients, and the stores it
makes, the latest first. -/
structure Effect where
  a : Byte
  x : Byte
  y : Byte
  sp : Byte
  pc : Addr
  flags : Flags
  budget : Nat
  ea : Addr
  tag : Tag
  stores : List (Addr × Byte)

end Sys2Proof.Machine

namespace Sys2Proof

open Machine

/-- The mnemonic's opcodes, by mode, are exactly those of this list (30_encoding R112). -/
def Op.HasOpcodes (o : Op) (l : List (Mode × Nat)) : Prop :=
  (∀ i : Instr, i.op = o → (i.mode, i.opcode.toNat) ∈ l) ∧
    ∀ p ∈ l, ∃ i : Instr, i.op = o ∧ (i.mode, i.opcode.toNat) = p

/-- The effect of an instruction that changes nothing of its own: PC past it, its ticks but one left to
wait, and EA and the tag of its mode. -/
def Instr.baseEffect (s : State) (i : Instr) : Effect :=
  { a := s.a, x := s.x, y := s.y, sp := s.sp, pc := s.pcPlus i.length, flags := s.flags
    budget := i.op.ticks i.mode + i.crossTicks s - 1
    ea := i.operand.target s, tag := i.operand.tag, stores := [] }

/-- The effect of a branch with its condition (44 R223): not taken, PC is past it and it takes 2 ticks;
taken, PC is the next address plus the signed displacement, for one tick more, and one more when that
lies in another page than the next address. -/
def Instr.branchEffect (s : State) (i : Instr) (cond : Bool) : Effect :=
  let next := (s.pc.toNat + 2) % 65536
  let target := BitVec.ofInt 16 ((next : Int) + (i.operand.value s).toInt)
  if cond then
    { i.baseEffect s with
      pc := target, budget := 2 + (decide (target.toNat / 256 ≠ next / 256)).toNat }
  else i.baseEffect s

end Sys2Proof

namespace Sys2Proof.Machine

/-- The effect of a host operation that changes nothing. -/
def State.noEffect (s : State) : Effect :=
  { a := s.a, x := s.x, y := s.y, sp := s.sp, pc := s.pc, flags := s.flags, budget := s.budget
    ea := s.ea, tag := s.tag, stores := [] }

/-- From `s` to `t` exactly this effect: the registers, the flags, the budget and the transients have
these values; every byte reads as after these stores; the device list is that of these stores, so that
no cell of any device changes otherwise, whether or not a read reaches it; and the host's side is
untouched. -/
def Effect.Holds (e : Effect) (s t : State) : Prop :=
  t.a = e.a ∧ t.x = e.x ∧ t.y = e.y ∧ t.sp = e.sp ∧ t.pc = e.pc ∧ t.flags = e.flags ∧
    t.budget = e.budget ∧ t.ea = e.ea ∧ t.tag = e.tag ∧ MemoryAfter s t e.stores ∧
    t.devices = s.devicesAfter e.stores ∧
    t.devices.map Device.withoutCells = s.devices.map Device.withoutCells ∧ SameHostSide s t

end Sys2Proof.Machine

namespace Sys2Proof

open Machine

/-- The instruction answers a next state, with exactly this effect. -/
def Instr.Does (i : Instr) (s : State) (e : Effect) : Prop :=
  ∃ t, exec i s = .next t ∧ e.Holds s t

end Sys2Proof

namespace Sys2Proof.Machine

/-- The host's next call runs in one step, with exactly this effect and the call used up. -/
def State.CallDoes (s : State) (call : HostCall) (rest : List HostCall) (e : Effect) : Prop :=
  s.calls = call :: rest → ∃ t, step s = .next t ∧ e.Holds (s.setCalls rest) t

/-- The three stores of an interrupt entry that saves the address `ret` and the flags `f`, the latest
first (60_exceptions R265, R270). -/
def State.frameStores (s : State) (ret : Addr) (f : Flags) : List (Addr × Byte) :=
  [(s.stackDown 2, statusByte f), (s.stackDown 1, BitVec.ofNat 8 (ret.toNat % 256)),
    (s.stackDown 0, BitVec.ofNat 8 (ret.toNat / 256))]

/-- The little-endian word read at a vector after stores (20_memory R65). -/
def State.vectorAfter (s : State) (stores : List (Addr × Byte)) (vec : Nat) : Addr :=
  BitVec.ofNat 16 ((s.peekAfter stores (BitVec.ofNat 16 vec)).toNat +
    256 * (s.peekAfter stores (BitVec.ofNat 16 (vec + 1))).toNat)

/-- The stack pointer moved down by `k`, modulo 256 (10_state R25). -/
def State.spDown (s : State) (k : Nat) : Byte := BitVec.ofNat 8 (s.sp.toNat + 256 - k)

/-- The stack pointer moved up by `k`, modulo 256. -/
def State.spUp (s : State) (k : Nat) : Byte := BitVec.ofNat 8 (s.sp.toNat + k)

/-- The word pulled from the `k`th and the next stack byte above SP, low byte first
(40_execution_engine R148). -/
def State.pulledWord (s : State) (k : Nat) : Nat :=
  (s.peek (s.stackUp k)).toNat + 256 * (s.peek (s.stackUp (k + 1))).toNat

/-! ## The invariant -/

/-- The handles of all devices of the machine. -/
def State.handles (s : State) : List DeviceId := (s.devices ++ s.detached).map Device.handle

/-- An unknown-opcode record is that of the byte PC stands at, with the budget used up
(60_exceptions R260). -/
def State.recordOk (s : State) : Bool :=
  match s.halted with
  | none => true
  | some (.unknownOpcode pc opcode) =>
    decide (s.pc = pc) && decide (s.budget = 0) && (formOf opcode).isNone

/-- The invariant of the machine: no device twice (10_state R36), every RAM canonical, B zero between
operations (R36), `RESET_CYCLES` positive (00_scope R8), and a true fault record. -/
def State.Inv (s : State) : Prop :=
  s.handles.Nodup ∧ (s.devices ++ s.detached).all Device.wf = true ∧ s.flags.b = false ∧
    0 < s.params.resetCycles ∧ s.recordOk = true

end Sys2Proof.Machine
end

