-- ==== Sys2Proof/Certificates/Slice0/Obligations.lean ====
section
/-! DEFINITION. The statements for the provers. Each docstring names the rule of spec/ it formalises.
The rules of files 41 to 45 are stated with the opcodes they list, so a statement about an instruction
covers every form it has. `Instr.Does` and `CallDoes` state the whole next state: every register and
flag, every byte as it reads, and the device list as exactly the stores leave it. -/

open Sys2Proof Sys2Proof.Machine

/-- Decoding the bytes of any of the 151 instructions, with any operand bytes and any bytes after them,
gives the instruction back and leaves the bytes after it (30_encoding R90, R91, R93, R110). -/
def Obligations.DecodeInvertsEncode : Prop :=
  ∀ (i : Instr) (rest : List Byte), decode (encode i ++ rest) = .ok i rest

/-- Whatever decodes to an instruction begins with that instruction's bytes: no two encodings mean the
same instruction (30_encoding R90, R110, R122). -/
def Obligations.EncodeInvertsDecode : Prop :=
  ∀ (bytes : List Byte) (i : Instr) (rest : List Byte),
    decode bytes = .ok i rest → bytes = encode i ++ rest

/-- The decoder rejects as an unknown opcode exactly the bytes the spec lists as undefined: those whose
low two bits are 11, and 41 more (30_encoding R118, which the spec marks as derived from R110). -/
def Obligations.UndefinedOpcodesAreRejected : Prop :=
  ∀ (opcode : Byte) (rest : List Byte),
    decode (opcode :: rest) = .rejected (.unknownOpcode opcode) ↔
      opcode.toNat % 4 = 3 ∨ opcode.toNat ∈
        [0x02, 0x04, 0x0C, 0x12, 0x14, 0x1A, 0x1C, 0x22, 0x32, 0x34, 0x3A, 0x3C, 0x42, 0x44, 0x52,
        0x54, 0x5A, 0x5C, 0x62, 0x64, 0x72, 0x74, 0x7A, 0x7C, 0x80, 0x82, 0x89, 0x92, 0x9C, 0x9E, 0xB2,
        0xC2, 0xD2, 0xD4, 0xDA, 0xDC, 0xE2, 0xF2, 0xF4, 0xFA, 0xFC]

/-- Words written out from the map: one or two for every family (30_encoding R92, R93, R112). -/
def Obligations.WordsOfTheMapDecode : Prop :=
  decode [0xA9, 0x80] = .ok (.ldaImm 0x80) [] ∧ decode [0xB6, 0xF0] = .ok (.ldxZpy 0xF0) [] ∧
    decode [0x9D, 0xF0, 0x12] = .ok (.staAbx 0x12F0) [] ∧ decode [0x71, 0x20] = .ok (.adcIzy 0x20) [] ∧
    decode [0x2C, 0x34, 0x12] = .ok (.bitAbs 0x1234) [] ∧ decode [0x6A] = .ok .rorAcc [] ∧
    decode [0x6C, 0xFF, 0x02] = .ok (.jmpInd 0x02FF) [] ∧ decode [0x20, 0x00, 0x90] = .ok (.jsr 0x9000) [] ∧
    decode [0xD0, 0xFA] = .ok (.bne 0xFA) [] ∧ decode [0x00, 0xEE] = .ok .brk [0xEE] ∧
    decode [0xEA] = .ok .nop []

/-- When the bytes at PC decode to an instruction, the next step is exactly that instruction's meaning: on
a bus the spec describes in full whose only ticking device is the CPU, at a dispatch (everReset, not
halted, budget 0, no host call ahead: 40_execution_engine R130, R131). Nothing is added around `exec`,
which itself moves PC past the instruction. -/
def Obligations.StepRunsTheDecodedInstruction : Prop :=
  ∀ (s : State) (i : Instr) (rest : List Byte),
    s.atDispatch → s.quiet → s.onlyCpuTicks →
      decode [s.peek s.pc, s.peek (s.pcPlus 1), s.peek (s.pcPlus 2)] = .ok i rest →
        step s = exec i s

/-- One `Bus.tick()`, as the host's explicit call or as the step with no call ahead (log 5): devices ahead of
the CPU have had this cycle's tick when the CPU ticks, devices behind it have theirs afterwards (20_memory
R55); where the CPU is not connected it gets no tick and its state stays (70 R307). `r` is the state with the
call used up. -/
def Obligations.BusTickRunsDevicesInOrder : Prop :=
  ∀ s r : State, (s.calls = [] ∧ r = s) ∨ (∃ rest, s.calls = .tick :: rest ∧ r = s.setCalls rest) →
    (s.devices.map Device.handle).Nodup →
      (.cpu ∉ s.devices → step s = .next (r.setDevices (s.devices.map Device.tick))) ∧
      ∀ pre post : List Device, s.devices = pre ++ .cpu :: post →
        step s =
          match cpuTick (r.setDevices (pre.map Device.tick ++ .cpu :: post)) with
          | .next t =>
            .next (t.setDevices (t.devices.map fun d =>
              if d.handle ∈ post.map Device.handle then d.tick else d))
          | .fault f => .fault f
          | .refused e => .refused e

/-- A waiting tick (40_execution_engine R130): the budget goes down by one and nothing else changes, even
when that takes it to zero. -/
def Obligations.WaitingTickOnlyDecrementsTheBudget : Prop :=
  ∀ (s : State) (k : Nat),
    s.everReset → s.running → s.budget = k + 1 → cpuTick s = .next (s.setBudget k) ∧
      (s.calls = [] → s.onlyCpuTicks → step s = .next (s.setBudget k))

/-- While the unknown-opcode record stands, the CPU's tick does nothing (60_exceptions R261, which the spec
marks as its decision D6). -/
def Obligations.HaltedTickChangesNothing : Prop :=
  ∀ (s : State) (f : Fault),
    s.everReset → s.halted = some f → cpuTick s = .next s ∧
      (s.calls = [] → s.onlyCpuTicks → step s = .next s)

/-- Dispatching one of the 105 undefined opcodes: PC stays at the offending byte, the record names it, and
nothing else changes (60_exceptions R260, which the spec marks as its decision D6). -/
def Obligations.UndefinedOpcodeHaltsTheCpu : Prop :=
  ∀ s : State,
    s.atDispatch → s.quiet → s.onlyCpuTicks → formOf (s.peek s.pc) = none →
      step s = .next (s.setHalted (some (.unknownOpcode s.pc (s.peek s.pc))))

/-- A CPU that was never reset has no tick and no interrupt entry (10_state R38, which the spec marks as its
decision D24). -/
def Obligations.NeverResetCpuIsRefused : Prop :=
  ∀ (s : State) (rest : List HostCall), s.everReset = false →
    (s.calls = .irq :: rest ∨ s.calls = .nmi :: rest ∨ ((s.calls = [] ∨ s.calls = .tick :: rest) ∧ .cpu ∈ s.devices)) →
      step s = .refused .neverReset

/-- A halted CPU stays halted with the same record, whatever the step is, unless it is the host's `reset`
(60_exceptions R262, which the spec marks as its decision D15). -/
def Obligations.OnlyResetClearsTheFault : Prop :=
  ∀ (s t : State) (f : Fault), s.halted = some f → step s = .next t →
    t.halted = some f ∨ ∃ rest, s.calls = .reset :: rest

/-- LDA, LDX, LDY in every mode: the register gets the operand byte, Z and N come from it, nothing else
changes but PC and the budget (41 R170 to R172). -/
def Obligations.LoadsWriteTheirRegister : Prop :=
  (∀ (s : State) (i : Instr), s.plain → i.op = .lda → i.Does s
      { i.baseEffect s with a := i.operand.value s, flags := s.flags.ofResult (i.operand.value s) }) ∧
  (∀ (s : State) (i : Instr), s.plain → i.op = .ldx → i.Does s
      { i.baseEffect s with x := i.operand.value s, flags := s.flags.ofResult (i.operand.value s) }) ∧
  (∀ (s : State) (i : Instr), s.plain → i.op = .ldy → i.Does s
      { i.baseEffect s with y := i.operand.value s, flags := s.flags.ofResult (i.operand.value s) }) ∧
    Op.lda.HasOpcodes [(.izx, 0xA1), (.zp, 0xA5), (.imm, 0xA9), (.abs, 0xAD), (.izy, 0xB1), (.zpx, 0xB5), (.aby, 0xB9), (.abx, 0xBD)] ∧
    Op.ldx.HasOpcodes [(.imm, 0xA2), (.zp, 0xA6), (.abs, 0xAE), (.zpy, 0xB6), (.aby, 0xBE)] ∧
    Op.ldy.HasOpcodes [(.imm, 0xA0), (.zp, 0xA4), (.abs, 0xAC), (.zpx, 0xB4), (.abx, 0xBC)]

/-- STA, STX, STY in every mode: the register is stored at the effective address, no flag and no register
changes, and no page-cross tick is taken (41 R173 to R175). That the Bus sees one write and no read of the
target is StoresMakeOneBusWriteAndNoRead. -/
def Obligations.StoresWriteOneByte : Prop :=
  (∀ (s : State) (i : Instr), s.plain → i.op = .sta → i.Does s
      { i.baseEffect s with stores := [(i.operand.target s, s.a)] }) ∧
  (∀ (s : State) (i : Instr), s.plain → i.op = .stx → i.Does s
      { i.baseEffect s with stores := [(i.operand.target s, s.x)] }) ∧
  (∀ (s : State) (i : Instr), s.plain → i.op = .sty → i.Does s
      { i.baseEffect s with stores := [(i.operand.target s, s.y)] }) ∧
    Op.sta.HasOpcodes [(.izx, 0x81), (.zp, 0x85), (.abs, 0x8D), (.izy, 0x91), (.zpx, 0x95), (.aby, 0x99), (.abx, 0x9D)] ∧
    Op.stx.HasOpcodes [(.zp, 0x86), (.abs, 0x8E), (.zpy, 0x96)] ∧
    Op.sty.HasOpcodes [(.zp, 0x84), (.abs, 0x8C), (.zpx, 0x94)]

/-- The six transfers, on any bus: the destination gets the source, Z and N come from it, except TXS, which
writes no flag (41 R176 to R181). -/
def Obligations.TransfersCopyARegister : Prop :=
  (∀ (s : State) (i : Instr), i.op = .tax → i.Does s { i.baseEffect s with x := s.a, flags := s.flags.ofResult s.a }) ∧
  (∀ (s : State) (i : Instr), i.op = .tay → i.Does s { i.baseEffect s with y := s.a, flags := s.flags.ofResult s.a }) ∧
  (∀ (s : State) (i : Instr), i.op = .txa → i.Does s { i.baseEffect s with a := s.x, flags := s.flags.ofResult s.x }) ∧
  (∀ (s : State) (i : Instr), i.op = .tya → i.Does s { i.baseEffect s with a := s.y, flags := s.flags.ofResult s.y }) ∧
  (∀ (s : State) (i : Instr), i.op = .tsx → i.Does s { i.baseEffect s with x := s.sp, flags := s.flags.ofResult s.sp }) ∧
  (∀ (s : State) (i : Instr), i.op = .txs → i.Does s { i.baseEffect s with sp := s.x }) ∧
    Op.tax.HasOpcodes [(.imp, 0xAA)] ∧
    Op.tay.HasOpcodes [(.imp, 0xA8)] ∧
    Op.txa.HasOpcodes [(.imp, 0x8A)] ∧
    Op.tya.HasOpcodes [(.imp, 0x98)] ∧
    Op.tsx.HasOpcodes [(.imp, 0xBA)] ∧
    Op.txs.HasOpcodes [(.imp, 0x9A)]

/-- ADC in every mode: the sum modulo 256, C the carry out of 255, V the signed overflow, Z and N of the
result; D is not read (42 R190). That V is the overflow of the signed sum is R190's own inference from its
formula, which it marks as derived. -/
def Obligations.AddWithCarryAddsAndSetsFlags : Prop :=
  (∀ (s : State) (i : Instr), s.plain → i.op = .adc →
    let m := i.operand.value s
    let t := s.a.toNat + m.toNat + s.flags.c.toNat
    let signed := s.a.toInt + m.toInt + s.flags.c.toNat
    let r := BitVec.ofNat 8 t
    i.Does s { i.baseEffect s with
      a := r
      flags := ({ s.flags with c := decide (255 < t), v := decide (signed < -128 ∨ 127 < signed) }).ofResult r }) ∧
    Op.adc.HasOpcodes [(.izx, 0x61), (.zp, 0x65), (.imm, 0x69), (.abs, 0x6D), (.izy, 0x71), (.zpx, 0x75), (.aby, 0x79), (.abx, 0x7D)]

/-- SBC in every mode: the difference less the borrow modulo 256, C when no borrow occurred, Z and N of the
result, V the signed overflow, or with `SBC_V_LITERAL` the literal bit-0 expression (42 R191, whose
two V formulas and default are the spec's decision D7, and whose closed form of the result it marks as
derived; the statement holds for both values of the parameter). -/
def Obligations.SubtractWithCarrySubtractsAndSetsFlags : Prop :=
  (∀ (s : State) (i : Instr), s.plain → i.op = .sbc →
    let m := i.operand.value s
    let borrow := 1 - s.flags.c.toNat
    let signed : Int := s.a.toInt - m.toInt - borrow
    let r := BitVec.ofInt 8 ((s.a.toNat : Int) - m.toNat - borrow)
    let literal := bitOf ((r ^^^ s.a) &&& (r ^^^ (m ^^^ 0xFF))) 0
    i.Does s { i.baseEffect s with
      a := r
      flags := ({ s.flags with
        c := decide (m.toNat + borrow ≤ s.a.toNat)
        v := if s.params.sbcVLiteral then literal else decide (signed < -128 ∨ 127 < signed) }).ofResult r }) ∧
    Op.sbc.HasOpcodes [(.izx, 0xE1), (.zp, 0xE5), (.imm, 0xE9), (.abs, 0xED), (.izy, 0xF1), (.zpx, 0xF5), (.aby, 0xF9), (.abx, 0xFD)]

/-- AND, ORA, EOR in every mode (42 R192 to R194). -/
def Obligations.LogicalOperationsWriteTheAccumulator : Prop :=
  (∀ (s : State) (i : Instr), s.plain → i.op = .and → i.Does s { i.baseEffect s with
      a := s.a &&& i.operand.value s, flags := s.flags.ofResult (s.a &&& i.operand.value s) }) ∧
  (∀ (s : State) (i : Instr), s.plain → i.op = .ora → i.Does s { i.baseEffect s with
      a := s.a ||| i.operand.value s, flags := s.flags.ofResult (s.a ||| i.operand.value s) }) ∧
  (∀ (s : State) (i : Instr), s.plain → i.op = .eor → i.Does s { i.baseEffect s with
      a := s.a ^^^ i.operand.value s, flags := s.flags.ofResult (s.a ^^^ i.operand.value s) }) ∧
    Op.and.HasOpcodes [(.izx, 0x21), (.zp, 0x25), (.imm, 0x29), (.abs, 0x2D), (.izy, 0x31), (.zpx, 0x35), (.aby, 0x39), (.abx, 0x3D)] ∧
    Op.ora.HasOpcodes [(.izx, 0x01), (.zp, 0x05), (.imm, 0x09), (.abs, 0x0D), (.izy, 0x11), (.zpx, 0x15), (.aby, 0x19), (.abx, 0x1D)] ∧
    Op.eor.HasOpcodes [(.izx, 0x41), (.zp, 0x45), (.imm, 0x49), (.abs, 0x4D), (.izy, 0x51), (.zpx, 0x55), (.aby, 0x59), (.abx, 0x5D)]

/-- CMP, CPX, CPY in every mode: C for greater or equal, Z for equal, N bit 7 of the 8-bit difference; no
register and not V (42 R195 to R197). -/
def Obligations.ComparesSetFlagsOnly : Prop :=
  (∀ (s : State) (i : Instr), s.plain → i.op = .cmp →
    let m := (i.operand.value s).toNat
    i.Does s { i.baseEffect s with flags := { s.flags with
      c := decide (m ≤ s.a.toNat), z := decide (s.a.toNat = m)
      n := decide (128 ≤ (s.a.toNat + 256 - m) % 256) } }) ∧
  (∀ (s : State) (i : Instr), s.plain → i.op = .cpx →
    let m := (i.operand.value s).toNat
    i.Does s { i.baseEffect s with flags := { s.flags with
      c := decide (m ≤ s.x.toNat), z := decide (s.x.toNat = m)
      n := decide (128 ≤ (s.x.toNat + 256 - m) % 256) } }) ∧
  (∀ (s : State) (i : Instr), s.plain → i.op = .cpy →
    let m := (i.operand.value s).toNat
    i.Does s { i.baseEffect s with flags := { s.flags with
      c := decide (m ≤ s.y.toNat), z := decide (s.y.toNat = m)
      n := decide (128 ≤ (s.y.toNat + 256 - m) % 256) } }) ∧
    Op.cmp.HasOpcodes [(.izx, 0xC1), (.zp, 0xC5), (.imm, 0xC9), (.abs, 0xCD), (.izy, 0xD1), (.zpx, 0xD5), (.aby, 0xD9), (.abx, 0xDD)] ∧
    Op.cpx.HasOpcodes [(.imm, 0xE0), (.zp, 0xE4), (.abs, 0xEC)] ∧
    Op.cpy.HasOpcodes [(.imm, 0xC0), (.zp, 0xC4), (.abs, 0xCC)]

/-- BIT in both modes: Z from A and the operand, N and V from bits 7 and 6 of the operand (42 R198). -/
def Obligations.BitTestCopiesOperandBits : Prop :=
  (∀ (s : State) (i : Instr), s.plain → i.op = .bit →
    let m := i.operand.value s
    i.Does s { i.baseEffect s with flags := { s.flags with
      z := decide (s.a &&& m = 0), n := bitOf m 7, v := bitOf m 6 } }) ∧
    Op.bit.HasOpcodes [(.zp, 0x24), (.abs, 0x2C)]

/-- INC and DEC in every mode: the byte at the effective address plus or minus one modulo 256 is stored
back, Z and N come from it, C and V are unchanged (42 R199, R200). -/
def Obligations.IncrementAndDecrementMemory : Prop :=
  (∀ (s : State) (i : Instr), s.plain → i.op = .inc →
    let r := BitVec.ofNat 8 ((i.operand.value s).toNat + 1)
    i.Does s { i.baseEffect s with stores := i.operand.stores s r, flags := s.flags.ofResult r }) ∧
  (∀ (s : State) (i : Instr), s.plain → i.op = .dec →
    let r := BitVec.ofNat 8 ((i.operand.value s).toNat + 255)
    i.Does s { i.baseEffect s with stores := i.operand.stores s r, flags := s.flags.ofResult r }) ∧
    Op.inc.HasOpcodes [(.zp, 0xE6), (.abs, 0xEE), (.zpx, 0xF6), (.abx, 0xFE)] ∧
    Op.dec.HasOpcodes [(.zp, 0xC6), (.abs, 0xCE), (.zpx, 0xD6), (.abx, 0xDE)]

/-- INX, INY, DEX, DEY, on any bus (42 R201 to R204). -/
def Obligations.IncrementAndDecrementIndex : Prop :=
  (∀ (s : State) (i : Instr), i.op = .inx →
    let r := BitVec.ofNat 8 (s.x.toNat + 1)
    i.Does s { i.baseEffect s with x := r, flags := s.flags.ofResult r }) ∧
  (∀ (s : State) (i : Instr), i.op = .iny →
    let r := BitVec.ofNat 8 (s.y.toNat + 1)
    i.Does s { i.baseEffect s with y := r, flags := s.flags.ofResult r }) ∧
  (∀ (s : State) (i : Instr), i.op = .dex →
    let r := BitVec.ofNat 8 (s.x.toNat + 255)
    i.Does s { i.baseEffect s with x := r, flags := s.flags.ofResult r }) ∧
  (∀ (s : State) (i : Instr), i.op = .dey →
    let r := BitVec.ofNat 8 (s.y.toNat + 255)
    i.Does s { i.baseEffect s with y := r, flags := s.flags.ofResult r }) ∧
    Op.inx.HasOpcodes [(.imp, 0xE8)] ∧
    Op.iny.HasOpcodes [(.imp, 0xC8)] ∧
    Op.dex.HasOpcodes [(.imp, 0xCA)] ∧
    Op.dey.HasOpcodes [(.imp, 0x88)]

/-- ASL, LSR, ROL, ROR of the accumulator or of memory: one bit, C the bit shifted out, the rotates shift the
old C in, Z and N of the result, V unchanged (43 R210 to R214). -/
def Obligations.ShiftsAndRotatesMoveOneBit : Prop :=
  (∀ (s : State) (i : Instr), s.plain → i.op = .asl →
    let v := (i.operand.value s).toNat
    let r := BitVec.ofNat 8 (2 * v)
    i.Does s { i.baseEffect s with
      a := if i.mode = .acc then r else s.a
      stores := i.operand.stores s r
      flags := ({ s.flags with c := decide (128 ≤ v) }).ofResult r }) ∧
  (∀ (s : State) (i : Instr), s.plain → i.op = .lsr →
    let v := (i.operand.value s).toNat
    let r := BitVec.ofNat 8 (v / 2)
    i.Does s { i.baseEffect s with
      a := if i.mode = .acc then r else s.a
      stores := i.operand.stores s r
      flags := ({ s.flags with c := decide (v % 2 = 1) }).ofResult r }) ∧
  (∀ (s : State) (i : Instr), s.plain → i.op = .rol →
    let v := (i.operand.value s).toNat
    let r := BitVec.ofNat 8 (2 * v + s.flags.c.toNat)
    i.Does s { i.baseEffect s with
      a := if i.mode = .acc then r else s.a
      stores := i.operand.stores s r
      flags := ({ s.flags with c := decide (128 ≤ v) }).ofResult r }) ∧
  (∀ (s : State) (i : Instr), s.plain → i.op = .ror →
    let v := (i.operand.value s).toNat
    let r := BitVec.ofNat 8 (v / 2 + 128 * s.flags.c.toNat)
    i.Does s { i.baseEffect s with
      a := if i.mode = .acc then r else s.a
      stores := i.operand.stores s r
      flags := ({ s.flags with c := decide (v % 2 = 1) }).ofResult r }) ∧
    Op.asl.HasOpcodes [(.zp, 0x06), (.acc, 0x0A), (.abs, 0x0E), (.zpx, 0x16), (.abx, 0x1E)] ∧
    Op.lsr.HasOpcodes [(.zp, 0x46), (.acc, 0x4A), (.abs, 0x4E), (.zpx, 0x56), (.abx, 0x5E)] ∧
    Op.rol.HasOpcodes [(.zp, 0x26), (.acc, 0x2A), (.abs, 0x2E), (.zpx, 0x36), (.abx, 0x3E)] ∧
    Op.ror.HasOpcodes [(.zp, 0x66), (.acc, 0x6A), (.abs, 0x6E), (.zpx, 0x76), (.abx, 0x7E)]

/-- JMP absolute and indirect: PC is the effective address, and the pointer's high byte comes from the same
page (44 R220, 30_encoding R105). -/
def Obligations.JumpGoesToItsAddress : Prop :=
  (∀ (s : State) (i : Instr), s.plain → i.op = .jmp → i.Does s { i.baseEffect s with pc := i.operand.target s }) ∧
    Op.jmp.HasOpcodes [(.abs, 0x4C), (.ind, 0x6C)]

/-- JSR: the address of its third byte is pushed, high byte first, and PC is the operand (44 R221, which the
spec marks as derived). -/
def Obligations.JsrPushesTheAddressOfItsLastByte : Prop :=
  (∀ (s : State) (i : Instr), s.plain → i.op = .jsr →
    let last := s.pcPlus 2
    i.Does s { i.baseEffect s with
      pc := i.operand.target s, sp := s.spDown 2
      stores := [(s.stackDown 1, BitVec.ofNat 8 (last.toNat % 256)), (s.stackDown 0, BitVec.ofNat 8 (last.toNat / 256))] }) ∧
    Op.jsr.HasOpcodes [(.abs, 0x20)]

/-- RTS: PC is the pulled word plus one, SP two higher (44 R222). -/
def Obligations.RtsResumesAfterTheCall : Prop :=
  (∀ (s : State) (i : Instr), s.plain → i.op = .rts → i.Does s
      { i.baseEffect s with pc := BitVec.ofNat 16 (s.pulledWord 1 + 1), sp := s.spUp 2 }) ∧
    Op.rts.HasOpcodes [(.imp, 0x60)]

/-- The eight branches, on any bus: the condition of each, the target, and the ticks (44 R223 to R231). That the
displacement is read on a branch not taken (decision D12) is not part of the statement: such a read shows
only on a device with read side effects. -/
def Obligations.BranchesTestTheirFlag : Prop :=
  (∀ (s : State) (i : Instr), i.op = .bcc → i.Does s (i.branchEffect s (!s.flags.c))) ∧
  (∀ (s : State) (i : Instr), i.op = .bcs → i.Does s (i.branchEffect s (s.flags.c))) ∧
  (∀ (s : State) (i : Instr), i.op = .beq → i.Does s (i.branchEffect s (s.flags.z))) ∧
  (∀ (s : State) (i : Instr), i.op = .bne → i.Does s (i.branchEffect s (!s.flags.z))) ∧
  (∀ (s : State) (i : Instr), i.op = .bmi → i.Does s (i.branchEffect s (s.flags.n))) ∧
  (∀ (s : State) (i : Instr), i.op = .bpl → i.Does s (i.branchEffect s (!s.flags.n))) ∧
  (∀ (s : State) (i : Instr), i.op = .bvc → i.Does s (i.branchEffect s (!s.flags.v))) ∧
  (∀ (s : State) (i : Instr), i.op = .bvs → i.Does s (i.branchEffect s (s.flags.v))) ∧
    Op.bcc.HasOpcodes [(.rel, 0x90)] ∧
    Op.bcs.HasOpcodes [(.rel, 0xB0)] ∧
    Op.beq.HasOpcodes [(.rel, 0xF0)] ∧
    Op.bne.HasOpcodes [(.rel, 0xD0)] ∧
    Op.bmi.HasOpcodes [(.rel, 0x30)] ∧
    Op.bpl.HasOpcodes [(.rel, 0x10)] ∧
    Op.bvc.HasOpcodes [(.rel, 0x50)] ∧
    Op.bvs.HasOpcodes [(.rel, 0x70)]

/-- PHA and PHP: A, or the packed status with bit 5 one and bit 4 the stored B, is stored at 0x0100+SP and SP
goes down by one (45 R240, R242). -/
def Obligations.PushesWriteTheStack : Prop :=
  (∀ (s : State) (i : Instr), s.plain → i.op = .pha → i.Does s
      { i.baseEffect s with sp := s.spDown 1, stores := [(s.stackDown 0, s.a)] }) ∧
  (∀ (s : State) (i : Instr), s.plain → i.op = .php → i.Does s
      { i.baseEffect s with sp := s.spDown 1, stores := [(s.stackDown 0, statusByte s.flags)] }) ∧
    Op.pha.HasOpcodes [(.imp, 0x48)] ∧
    Op.php.HasOpcodes [(.imp, 0x08)]

/-- PLA: SP goes up by one, A is the byte there, Z and N come from it (45 R241). -/
def Obligations.PlaLoadsFromTheStack : Prop :=
  (∀ (s : State) (i : Instr), s.plain → i.op = .pla →
    let v := s.peek (s.stackUp 1)
    i.Does s { i.baseEffect s with a := v, sp := s.spUp 1, flags := s.flags.ofResult v }) ∧
    Op.pla.HasOpcodes [(.imp, 0x68)]

/-- PLP: all flags from the pulled byte, bits 5 and 4 ignored, B cleared (45 R243, whose clearing of B is the
spec's decision D9). -/
def Obligations.PlpLoadsTheFlags : Prop :=
  (∀ (s : State) (i : Instr), s.plain → i.op = .plp → i.Does s
      { i.baseEffect s with sp := s.spUp 1, flags := statusFlags (s.peek (s.stackUp 1)) }) ∧
    Op.plp.HasOpcodes [(.imp, 0x28)]

/-- CLC, SEC, CLI, SEI, CLD, SED, CLV, on any bus (45 R244 to R250). -/
def Obligations.FlagInstructionsWriteOneFlag : Prop :=
  (∀ (s : State) (i : Instr), i.op = .clc → i.Does s
      { i.baseEffect s with flags := { s.flags with c := false } }) ∧
  (∀ (s : State) (i : Instr), i.op = .sec → i.Does s
      { i.baseEffect s with flags := { s.flags with c := true } }) ∧
  (∀ (s : State) (i : Instr), i.op = .cli → i.Does s
      { i.baseEffect s with flags := { s.flags with i := false } }) ∧
  (∀ (s : State) (i : Instr), i.op = .sei → i.Does s
      { i.baseEffect s with flags := { s.flags with i := true } }) ∧
  (∀ (s : State) (i : Instr), i.op = .cld → i.Does s
      { i.baseEffect s with flags := { s.flags with d := false } }) ∧
  (∀ (s : State) (i : Instr), i.op = .sed → i.Does s
      { i.baseEffect s with flags := { s.flags with d := true } }) ∧
  (∀ (s : State) (i : Instr), i.op = .clv → i.Does s
      { i.baseEffect s with flags := { s.flags with v := false } }) ∧
    Op.clc.HasOpcodes [(.imp, 0x18)] ∧
    Op.sec.HasOpcodes [(.imp, 0x38)] ∧
    Op.cli.HasOpcodes [(.imp, 0x58)] ∧
    Op.sei.HasOpcodes [(.imp, 0x78)] ∧
    Op.cld.HasOpcodes [(.imp, 0xD8)] ∧
    Op.sed.HasOpcodes [(.imp, 0xF8)] ∧
    Op.clv.HasOpcodes [(.imp, 0xB8)]

/-- NOP, on any bus (45 R251). -/
def Obligations.NopOnlyAdvances : Prop :=
  (∀ (s : State) (i : Instr), i.op = .nop → i.Does s (i.baseEffect s)) ∧
    Op.nop.HasOpcodes [(.imp, 0xEA)] ∧
    ∀ (s : State) (i : Instr), i.op = .nop → (i.baseEffect s).pc = s.pcPlus 1 ∧ (i.baseEffect s).budget = 1

/-- BRK: the return address (opcode address plus 1 plus `BRK_PC_SKIP`) and the status with B and I set are
pushed, then I is set, B is zero and PC is the word at 0xFFFE (45 R252, 60_exceptions R265, R270; the vector
address is the spec's decision D1). The vector is read after the pushes. -/
def Obligations.BrkEntersThroughTheIrqVector : Prop :=
  (∀ (s : State) (i : Instr), s.plain → i.op = .brk →
    let ret := s.pcPlus (1 + s.params.brkPcSkip.toNat)
    let stores := s.frameStores ret { s.flags with b := true, i := true }
    i.Does s { i.baseEffect s with
      sp := s.spDown 3, pc := s.vectorAfter stores 0xFFFE
      flags := { s.flags with b := false, i := true }, stores := stores }) ∧
    Op.brk.HasOpcodes [(.imp, 0x00)]

/-- RTI: the flags from the first pulled byte with B cleared, PC from the next two, low byte first, nothing
added (45 R253, 60_exceptions R275). -/
def Obligations.RtiRestoresStatusAndPc : Prop :=
  (∀ (s : State) (i : Instr), s.plain → i.op = .rti → i.Does s { i.baseEffect s with
      sp := s.spUp 3, pc := BitVec.ofNat 16 (s.pulledWord 2), flags := statusFlags (s.peek (s.stackUp 1)) }) ∧
    Op.rti.HasOpcodes [(.imp, 0x40)]

/-- An `irq()` while I is set or the CPU is halted, and an `nmi()` while it is halted, are dropped: no register,
flag, budget, device or byte of memory changes (60_exceptions R266, R262, whose refusal while halted is the
spec's decision D15). -/
def Obligations.MaskedIrqChangesNothing : Prop :=
  ∀ (s : State) (rest : List HostCall), s.everReset →
    (s.calls = .irq :: rest → (s.flags.i ∨ s.running = false) → step s = .next (s.setCalls rest)) ∧
    (s.calls = .nmi :: rest → s.running = false → step s = .next (s.setCalls rest))

/-- An accepted `irq()`: the frame with the stored B zero and I one, PC the word at 0xFFFE, and the cost added
to the budget (60_exceptions R266, R265, R271; the vector address is the spec's decision D1). -/
def Obligations.IrqEntersThroughItsVector : Prop :=
  ∀ (s : State) (rest : List HostCall), s.plain → s.everReset → s.running → s.flags.i = false →
    let stores := s.frameStores s.pc { s.flags with b := false, i := true }
    s.CallDoes .irq rest { s.noEffect with
      sp := s.spDown 3, pc := s.vectorAfter stores 0xFFFE, flags := { s.flags with b := false, i := true }
      budget := s.budget + s.params.irqCycles, stores := stores }

/-- `nmi()` on a running CPU, whatever I is (60_exceptions R267, R265; the vector address is the spec's
decision D1). -/
def Obligations.NmiEntersThroughItsVector : Prop :=
  ∀ (s : State) (rest : List HostCall), s.plain → s.everReset → s.running →
    let stores := s.frameStores s.pc { s.flags with b := false, i := true }
    s.CallDoes .nmi rest { s.noEffect with
      sp := s.spDown 3, pc := s.vectorAfter stores 0xFFFA, flags := { s.flags with b := false, i := true }
      budget := s.budget + s.params.nmiCycles, stores := stores }

/-- `reset()` on any CPU, halted or never reset too: PC from 0xFFFC, A, X, Y and the flags zero, SP 0xFD, the
budget `RESET_CYCLES`, no fault record; no byte of memory changes (70 R300, R301; the vector address is the
spec's decision D1, clearing the record D15). EA and the tag are kept (log 3). -/
def Obligations.ResetInitialisesTheCpu : Prop :=
  ∀ (s : State) (rest : List HostCall), s.calls = .reset :: rest →
    (∃ t, step s = .next t ∧ t.a = 0 ∧ t.x = 0 ∧ t.y = 0 ∧ t.sp = 0xFD ∧ t.flags = Flags.zero ∧
      t.budget = s.params.resetCycles ∧ t.halted = none ∧ t.everReset = true ∧ t.calls = rest ∧
      ramContents t.devices = ramContents s.devices) ∧
    (s.plain → step s = .next { s with
      a := 0, x := 0, y := 0, sp := 0xFD, pc := BitVec.ofNat 16 (s.peekNat 0xFFFC + 256 * s.peekNat 0xFFFD)
      flags := Flags.zero, budget := s.params.resetCycles, halted := none, everReset := true, calls := rest })

/-- `connect`: the device goes to the head of the list; one that is connected is refused (20_memory R53, whose
refusal is the spec's decision D16). Holding unconnected devices in the state is the model's choice (log 9). -/
def Obligations.ConnectPutsTheDeviceFirst : Prop :=
  ∀ (s : State) (id : DeviceId) (rest : List HostCall), s.calls = .connect id :: rest →
    ((∃ d ∈ s.devices, d.handle = id) → step s = .refused .deviceAlreadyConnected) ∧
    (∀ d, s.handles.Nodup → d ∈ s.detached → d.handle = id →
      ∃ t, step s = .next t ∧ t.devices = d :: s.devices ∧ t.detached.Perm (s.detached.erase d) ∧
        t = ((s.setCalls rest).setDevices t.devices).setDetached t.detached) ∧
    ((∀ d ∈ s.devices ++ s.detached, d.handle ≠ id) → step s = .refused .noSuchDevice)

/-- `disconnect`: the device is removed and the others keep their order, or NotFound and nothing changes
(20_memory R54). Keeping the removed device in the state is the model's choice (log 9). -/
def Obligations.DisconnectRemovesTheDevice : Prop :=
  ∀ (s : State) (id : DeviceId) (rest : List HostCall), s.calls = .disconnect id :: rest →
    ((∀ d ∈ s.devices, d.handle ≠ id) → step s = .next ((s.setCalls rest).setReply .notFound)) ∧
    (∀ pre d post, s.devices = pre ++ d :: post → d.handle = id → (s.devices.map Device.handle).Nodup →
      step s = .next ((((s.setCalls rest).setDevices (pre ++ post)).setDetached (d :: s.detached)).setReply .ok))

/-- `Bus.read` and `Bus.write`: devices ahead of the first responder are asked, it answers, and devices after
it are not invoked; with no responder the answer is SENTINEL (20_memory R56, R57). -/
def Obligations.FirstResponderAnswersARead : Prop :=
  (∀ (addr : Addr) (v : Byte) (pre post : List Device) (d : Device),
    (∀ e ∈ pre, (e.read addr).1 = none) → (d.read addr).1 = some v →
      busRead addr (pre ++ d :: post) = (some v, pre.map (fun e => (e.read addr).2) ++ (d.read addr).2 :: post)) ∧
  (∀ (addr : Addr) (ds : List Device), (∀ e ∈ ds, (e.read addr).1 = none) →
      busRead addr ds = (none, ds.map fun e => (e.read addr).2)) ∧
  (∀ (addr : Addr) (v : Byte) (pre post : List Device) (d : Device),
    (∀ e ∈ pre, (e.write addr v).1 = false) → (d.write addr v).1 = true →
      busWrite addr v (pre ++ d :: post) =
        (true, pre.map (fun e => (e.write addr v).2) ++ (d.write addr v).2 :: post)) ∧
  (∀ (addr : Addr) (v : Byte) (ds : List Device), (∀ e ∈ ds, (e.write addr v).1 = false) →
      busWrite addr v ds = (false, ds.map fun e => (e.write addr v).2))

/-- The host's own `read` and `write`: the byte or SENTINEL, `ok` or SENTINEL; the CPU's registers are not
touched (20_memory R56, R57, 00_scope R7). Holding the answer in the state is the model's choice (log 10). -/
def Obligations.HostReadAndWriteReply : Prop :=
  ∀ (s : State) (addr : Addr) (v : Byte) (rest : List HostCall),
    (s.calls = .read addr :: rest →
      step s = .next (((s.setCalls rest).setDevices (busRead addr s.devices).2).setReply
        (((busRead addr s.devices).1.map HostReply.byte).getD .sentinel))) ∧
    (s.calls = .write addr v :: rest →
      step s = .next (((s.setCalls rest).setDevices (busWrite addr v s.devices).2).setReply
        (if (busWrite addr v s.devices).1 = true then .ok else .sentinel)))

/-- Seen from the CPU, an address no device answers reads as 0xFF, and a write no device accepts is lost with
no error (20_memory R60, R61). -/
def Obligations.OpenBusReadsAsAllOnes : Prop :=
  ∀ (s : State) (addr : Addr) (v : Byte), s.quiet →
    (readCell addr s.devices = none → memRead addr s = (0xFF, s)) ∧
    ((∀ d ∈ s.devices, (d.write addr v).1 = false) → memWrite addr v s = s)

/-- The RAM device: inside its window a read gives the byte last stored at that index and a write stores and
is accepted; outside it declines and nothing changes (20_memory R69). -/
def Obligations.RamKeepsItsBytes : Prop :=
  ∀ (id : Nat) (r : Ram) (addr other : Addr) (v : Byte), r.wf → r.onWrite = .stores →
    (r.claims addr → r.claims other → ∃ r' : Ram,
      Device.write addr v (.ram id r) = (true, .ram id r') ∧ r'.wf = true ∧
        { r' with cells := r.cells } = r ∧
        Device.read other (.ram id r') =
          (some (if r.index other = r.index addr then v else Memory.get r.cells (r.index other)), .ram id r')) ∧
    (r.claims addr = false →
      Device.read addr (.ram id r) = (none, .ram id r) ∧ Device.write addr v (.ram id r) = (false, .ram id r))

/-- The memory's canonical form (log 2): a write keeps it, and two canonical memories that read the same at
every index are the same data. This is the model's own convention. -/
def Obligations.CanonicalMemoriesAreEqual : Prop :=
  (∀ (capacity i : Nat) (m : Memory) (v : Byte), i < capacity → Memory.wf capacity m →
    Memory.wf capacity (Memory.set m i v) = true ∧
      ∀ j, Memory.get (Memory.set m i v) j = if j = i then v else Memory.get m j) ∧
  (∀ (capacity : Nat) (m m' : Memory), Memory.wf capacity m → Memory.wf capacity m' →
    (∀ j, Memory.get m j = Memory.get m' j) → m = m')

/-- Packing then unpacking keeps all flags when B is zero; unpacking then packing gives the byte with bit 5 set
and bit 4 clear; the packed byte is the sum of the weighted flags (40_execution_engine R150 to R152).
R152 is marked there as derived from R150 and R151, and clearing B in every unpack is the spec's decision D9. -/
def Obligations.StatusByteRoundTrip : Prop :=
  (∀ f : Flags, (packStatus f).toNat = statusNat f ∧ unpackStatus (packStatus f) = { f with b := false }) ∧
    ∀ p : Byte, packStatus (unpackStatus p) = (p ||| 0x20) &&& 0xEF

/-- A pushed word is pulled back exactly when the two stack bytes are backed by memory that keeps them
(40_execution_engine R147, R148). -/
def Obligations.Push16ThenPull16RoundTrips : Prop :=
  ∀ (s : State) (w : Addr), s.plain → s.backs [s.stackDown 0, s.stackDown 1] →
    withPull16 (push16 w s) (fun v t => (v, t.sp, t.a, t.x, t.y, t.pc, t.flags, t.budget)) =
      (w, s.sp, s.a, s.x, s.y, s.pc, s.flags, s.budget)

/-- JSR followed at once by RTS resumes at the instruction after the JSR with the stack pointer restored, when
the two stack bytes are backed (44 R221, R222). -/
def Obligations.CallThenReturnResumesAfterTheCall : Prop :=
  ∀ (s t u : State) (w : Addr), s.plain → s.backs [s.stackDown 0, s.stackDown 1] →
    exec (.jsr w) s = .next t → exec .rts t = .next u →
      u.pc = s.pcPlus 3 ∧ u.sp = s.sp ∧ u.flags = s.flags ∧ u.a = s.a ∧ u.x = s.x ∧ u.y = s.y

/-- An interrupt followed at once by RTI resumes exactly at the interrupted PC with SP restored, and with I = 1
whatever it was, because I is set before the status is pushed (60_exceptions R268, R270, R275). -/
def Obligations.InterruptThenReturnResumesMasked : Prop :=
  ∀ (s t : State) (vec : Addr), s.plain → s.backs [s.stackDown 0, s.stackDown 1, s.stackDown 2] →
    exec .rti (interrupt vec (setB false s)) = .next t →
      t.pc = s.pc ∧ t.sp = s.sp ∧ t.flags = { s.flags with i := true, b := false } ∧
        t.a = s.a ∧ t.x = s.x ∧ t.y = s.y

/-- The flag table of 10_state R28, on any bus: a flag changes only in the instructions its row lists; B is
zero after every instruction that writes it, so it can only go to zero. -/
def Obligations.OnlyTheListedInstructionsChangeAFlag : Prop :=
  ∀ (s t : State) (i : Instr), exec i s = .next t →
    (t.flags.n = s.flags.n ∨ i.op ∈ [.lda, .ldx, .ldy, .tax, .tay, .txa, .tya, .tsx, .pla, .adc, .sbc, .and, .ora, .eor, .inc, .dec, .inx, .iny, .dex, .dey, .asl, .lsr, .rol, .ror, .cmp, .cpx, .cpy, .bit, .plp, .rti]) ∧
    (t.flags.v = s.flags.v ∨ i.op ∈ [.adc, .sbc, .bit, .clv, .plp, .rti]) ∧
    (t.flags.d = s.flags.d ∨ i.op ∈ [.sed, .cld, .plp, .rti]) ∧
    (t.flags.i = s.flags.i ∨ i.op ∈ [.sei, .cli, .brk, .plp, .rti]) ∧
    (t.flags.z = s.flags.z ∨ i.op ∈ [.lda, .ldx, .ldy, .tax, .tay, .txa, .tya, .tsx, .pla, .adc, .sbc, .and, .ora, .eor, .inc, .dec, .inx, .iny, .dex, .dey, .asl, .lsr, .rol, .ror, .cmp, .cpx, .cpy, .bit, .plp, .rti]) ∧
    (t.flags.c = s.flags.c ∨ i.op ∈ [.adc, .sbc, .cmp, .cpx, .cpy, .asl, .lsr, .rol, .ror, .sec, .clc, .plp, .rti]) ∧
    (t.flags.b = s.flags.b ∨ (t.flags.b = false ∧ i.op ∈ [.brk, .plp, .rti]))

/-- The register rules of 10_state R22 to R25, on any bus: A, X, Y and SP change only in the instructions
listed. -/
def Obligations.OnlyTheListedInstructionsChangeARegister : Prop :=
  ∀ (s t : State) (i : Instr), exec i s = .next t →
    (t.a = s.a ∨ i.op ∈ [.lda, .pla, .txa, .tya, .adc, .sbc, .and, .ora, .eor] ∨
      (i.op ∈ [.asl, .lsr, .rol, .ror] ∧ i.mode = .acc)) ∧
    (t.x = s.x ∨ i.op ∈ [.ldx, .tax, .tsx, .inx, .dex]) ∧
    (t.y = s.y ∨ i.op ∈ [.ldy, .tay, .iny, .dey]) ∧
    (t.sp = s.sp ∨ i.op ∈ [.txs, .pha, .php, .pla, .plp, .jsr, .rts, .brk, .rti])

/-- On any bus and in any state every one of the 151 instructions answers a next state: no access faults
(20_memory R73), one privilege level (60_exceptions R280). The host's side is untouched, the device list
keeps its handles, PC is past the instruction unless it transfers control, at least one tick is left to
wait, and no RAM changes unless the instruction stores. -/
def Obligations.EveryInstructionCompletes : Prop :=
  ∀ (i : Instr) (s : State), ∃ t, exec i s = .next t ∧ SameHostSide s t ∧
    t.devices.map Device.handle = s.devices.map Device.handle ∧ 1 ≤ t.budget ∧
    (i.op.isBranch = false → i.op ∉ [.jmp, .jsr, .rts, .brk, .rti] → t.pc = s.pcPlus i.length) ∧
    (i.op.isStore = false → (i.op.isModify = true → i.mode = .acc) → i.op ∉ [.pha, .php, .jsr, .brk] →
      ramContents t.devices = ramContents s.devices)

/-- D affects no computation (42 R205): but for the instructions that pack, pull or write it, an instruction
runs the same with D changed and leaves the changed D. -/
def Obligations.DecimalFlagHasNoEffect : Prop :=
  ∀ (i : Instr) (s : State) (d : Bool), i.op ∉ [.php, .brk, .plp, .rti, .sed, .cld] →
    ∃ t, exec i s = .next t ∧
      exec i (s.setFlags { s.flags with d := d }) = .next (t.setFlags { t.flags with d := d })

/-- No instruction reads a value of EA or the tag left by an earlier one (10_state R31): with both replaced, the
next state differs at most in EA and the tag. -/
def Obligations.TransientsAreNotObservable : Prop :=
  ∀ (i : Instr) (s : State) (ea : Addr) (tag : Tag), ∃ t u,
    exec i s = .next t ∧ exec i ((s.setEa ea).setTag tag) = .next u ∧ (u.setEa t.ea).setTag t.tag = t

/-- No register, flag or memory value depends on the budget (40_execution_engine R137): a dispatch overwrites
it. -/
def Obligations.BudgetIsTimingOnly : Prop :=
  ∀ (i : Instr) (s : State) (k : Nat), exec i (s.setBudget k) = exec i s

/-- No step ends in a fault outcome (the spec's one fault is a recorded state: log 8), and none changes the named
parameters (00_scope R8). -/
def Obligations.StepNeverFaultsAndKeepsTheParameters : Prop :=
  ∀ s : State, (∀ f, step s ≠ .fault f) ∧ ∀ t, step s = .next t → t.params = s.params

/-- The state after reset holds the invariant (10_state R36, R37) and is what `reset()` gives again. Its platform
is the model's choice (log 1). -/
def Obligations.ResetStateHoldsTheInvariant : Prop :=
  State.reset.Inv ∧ cpuReset State.reset = State.reset

/-- Every step keeps the invariant, from every state that holds it: no device twice, canonical RAM, B zero
between operations, `RESET_CYCLES` positive, and a fault record that names the byte PC stands at with the
budget used up (10_state R36, 60_exceptions R260). -/
def Obligations.StepKeepsTheInvariant : Prop :=
  ∀ s t : State, s.Inv → step s = .next t → t.Inv

/-- On any bus, also one of unknown devices: STA, STX and STY give the Bus the resolver's own pointer reads, then
one write of the register at the effective address, and no other access; the modes without a pointer make
the write alone (41 R173 to R175, 20_memory R68, whose exclusion of further accesses is the spec's decision
D12). -/
def Obligations.StoresMakeOneBusWriteAndNoRead : Prop :=
  ∀ (s : State) (i : Instr) (v : Byte),
    (i.op = .sta ∧ v = s.a) ∨ (i.op = .stx ∧ v = s.x) ∨ (i.op = .sty ∧ v = s.y) →
      ∃ t, exec i s = .next t ∧
        t.ea = (resolve i.operand (advance 1 s)).2.ea ∧
        t.devices = (busWrite t.ea v (resolve i.operand (advance 1 s)).2.devices).2 ∧
        (i.mode ∉ [.izx, .izy] →
          t.ea = i.operand.target s ∧ t.devices = (busWrite t.ea v s.devices).2)

/-- The machine as the host constructs it, with registers of any value and whatever devices were built (10_state
R34, R38): its Bus has no device, so a tick invokes nothing, the host's `read` and `write` give SENTINEL and
`disconnect` gives NotFound; `irq` and `nmi` are refused; and `reset()` leaves the empty list, with PC 0xFFFF
(70 R302, an inference of the spec; the refusal is its decision D24). -/
def Obligations.ConstructedBusIsEmpty : Prop :=
  ∀ (u : State) (built : List Device) (rest : List HostCall),
    let s := u.constructed built
    s.devices = [] ∧ s.everReset = false ∧ s.detached = .cpu :: built ∧
      (u.calls = [] → step s = .next s) ∧
      (u.calls = .tick :: rest → step s = .next (s.setCalls rest)) ∧
      (∀ addr, u.calls = .read addr :: rest → step s = .next ((s.setCalls rest).setReply .sentinel)) ∧
      (∀ addr v, u.calls = .write addr v :: rest → step s = .next ((s.setCalls rest).setReply .sentinel)) ∧
      (∀ id, u.calls = .disconnect id :: rest → step s = .next ((s.setCalls rest).setReply .notFound)) ∧
      ((u.calls = .irq :: rest ∨ u.calls = .nmi :: rest) → step s = .refused .neverReset) ∧
      (u.calls = .reset :: rest → ∃ t, step s = .next t ∧ t.devices = [] ∧ t.pc = 0xFFFF ∧ t.everReset = true)

/-- The bring-up of a constructed machine (70 R305): after connecting any of its devices one by one and then
`reset()`, the list holds exactly them, the latest first (10_state R34, 20_memory R53), and the CPU is as
10_state R37 says. Holding the devices not connected in the state is the model's choice (log 9). -/
def Obligations.BringUpConnectsThenResets : Prop :=
  ∀ (u : State) (built ds : List Device) (rest : List HostCall),
    ((Device.cpu :: built).map Device.handle).Nodup → ds.Nodup → ds ⊆ .cpu :: built →
      u.calls = (ds.map fun d => .connect d.handle) ++ .reset :: rest →
        ∃ t, stepTimes (ds.length + 1) (u.constructed built) = .next t ∧
          t.devices.map Device.handle = (ds.map Device.handle).reverse ∧
          t.detached.Perm ((Device.cpu :: built).filter fun d => decide (d ∉ ds)) ∧
          t.a = 0 ∧ t.x = 0 ∧ t.y = 0 ∧ t.sp = 0xFD ∧ t.flags = Flags.zero ∧
          t.budget = u.params.resetCycles ∧ t.halted = none ∧ t.everReset = true ∧ t.calls = rest ∧
          t.params = u.params ∧ ramContents t.devices = ramContents ds.reverse ∧
          (ds.all Device.isQuiet = true → t.devices = ds.reverse ∧
            t.pc = BitVec.ofNat 16 (t.peekNat 0xFFFC + 256 * t.peekNat 0xFFFD))
end

