-- ==== Sys2Proof/Laws/Address.lean ====
section
/-! SUPPORT. The address and byte-order helpers as numbers. -/

namespace Sys2Proof

theorem word16_toNat (hi lo : Byte) : (word16 hi lo).toNat = 256 * hi.toNat + lo.toNat := by
  simp only [word16, BitVec.toNat_append]
  rw [← Nat.shiftLeft_add_eq_or_of_lt lo.isLt, Nat.shiftLeft_eq]
  omega

theorem hiByte_toNat (w : Addr) : (hiByte w).toNat = w.toNat / 256 := by
  simp only [hiByte, BitVec.extractLsb'_toNat, Nat.shiftRight_eq_div_pow]
  have := w.isLt
  omega

theorem loByte_toNat (w : Addr) : (loByte w).toNat = w.toNat % 256 := by
  simp [loByte, BitVec.extractLsb'_toNat]

theorem word16_hiByte_loByte (w : Addr) : word16 (hiByte w) (loByte w) = w := by
  apply BitVec.eq_of_toNat_eq
  rw [word16_toNat, hiByte_toNat, loByte_toNat]
  omega

theorem loByte_word16 (hi lo : Byte) : loByte (word16 hi lo) = lo := by
  apply BitVec.eq_of_toNat_eq
  rw [loByte_toNat, word16_toNat]
  have := lo.isLt
  omega

theorem hiByte_word16 (hi lo : Byte) : hiByte (word16 hi lo) = hi := by
  apply BitVec.eq_of_toNat_eq
  rw [hiByte_toNat, word16_toNat]
  have := lo.isLt
  omega

namespace Machine

/-- The page of an address and the place of another in its page. -/
theorem page_or_place_toNat (p q : Addr) :
    ((p &&& 0xFF00) ||| (q &&& 0x00FF)).toNat = p.toNat - p.toNat % 256 + q.toNat % 256 := by
  have hp : p &&& (0xFF00 : Addr) = (p >>> 8) <<< 8 := by
    ext i hi
    interval_cases i <;> simp
  have hq : (q &&& 0x00FF).toNat = q.toNat % 256 := by
    rw [BitVec.toNat_and]
    exact Nat.and_two_pow_sub_one_eq_mod q.toNat 8
  have hlt : p.toNat >>> 8 <<< 8 < 65536 := by
    have := p.isLt
    simp only [Nat.shiftLeft_eq, Nat.shiftRight_eq_div_pow]
    omega
  rw [BitVec.toNat_or, hq, hp, BitVec.toNat_shiftLeft, BitVec.toNat_ushiftRight, Nat.mod_eq_of_lt hlt,
    ← Nat.shiftLeft_add_eq_or_of_lt (Nat.mod_lt _ (by decide : 0 < 2 ^ 8)), Nat.shiftLeft_eq,
    Nat.shiftRight_eq_div_pow]
  omega

theorem page_toNat (r : Addr) : (r &&& 0xFF00).toNat = 256 * (r.toNat / 256) := by
  have h := page_or_place_toNat r 0
  have h0 : ((0 : Addr) &&& 0x00FF) = 0#16 := by decide
  have h1 : (0 : Addr).toNat % 256 = 0 := by decide
  rw [h0, h1, BitVec.or_zero] at h
  omega

@[simp] theorem offAddr_zero (ea : Addr) : offAddr ea 0 = ea := by
  apply BitVec.eq_of_toNat_eq
  unfold offAddr
  have h0 : (0 : Byte).setWidth 16 = 0#16 := by decide
  rw [page_or_place_toNat, h0, BitVec.add_zero]
  omega

theorem offAddr_one_toNat (p : Addr) : (offAddr p 1).toNat = samePageNext p.toNat := by
  have := p.isLt
  have h1 : ((1 : Byte).setWidth 16 : Addr).toNat = 1 := by decide
  unfold offAddr samePageNext
  rw [page_or_place_toNat, BitVec.toNat_add, h1]
  omega

theorem pageDiffers_eq (p q : Addr) : pageDiffers p q = decide (p.toNat / 256 ≠ q.toNat / 256) := by
  unfold pageDiffers
  refine decide_eq_decide.mpr (not_congr ⟨fun h => ?_, fun h => ?_⟩)
  · have := congrArg BitVec.toNat h
    rw [page_toNat, page_toNat] at this
    omega
  · apply BitVec.eq_of_toNat_eq
    rw [page_toNat, page_toNat, h]

theorem zeroPage_toNat (b : Byte) : (zeroPage b).toNat = b.toNat := by
  have := b.isLt
  simp only [zeroPage, BitVec.toNat_setWidth]
  omega

theorem stackAddr_toNat (b : Byte) : (stackAddr b).toNat = 256 + b.toNat := by
  have := b.isLt
  simp only [stackAddr, stackBase, BitVec.toNat_add, BitVec.toNat_setWidth]
  simp
  omega

end Machine

end Sys2Proof
end

