-- ==== Sys2Proof/Laws/Memory.lean ====
section
/-! SUPPORT. The laws of a RAM's memory: what a write changes, and that it keeps the canonical form. -/

namespace Sys2Proof.Machine

theorem Memory.get_cons (i : Nat) (v : Byte) (m : Memory) (j : Nat) (h : Memory.get m i = unlistedByte) :
    Memory.get (Memory.cons i v m) j = if j = i then v else Memory.get m j := by
  unfold Memory.cons
  by_cases hv : v = unlistedByte
  · by_cases hj : j = i
    · subst hj; simp [hv, h]
    · simp [hv, hj]
  · by_cases hj : j = i
    · subst hj; simp [hv, Memory.get]
    · simp [hv, hj, Memory.get, Ne.symm hj]

/-- Below a canonical memory's first index nothing is listed. -/
theorem Memory.get_of_lt {lo hi : Nat} {m : Memory} (h : Memory.wfFrom lo hi m) {j : Nat} (hj : j < lo) :
    Memory.get m j = unlistedByte := by
  induction m generalizing lo with
  | nil => rfl
  | cons p m ih =>
    obtain ⟨k, v⟩ := p
    simp only [Memory.wfFrom, Bool.and_eq_true, decide_eq_true_eq] at h
    have : k ≠ j := by omega
    simp only [Memory.get, this, if_false]
    exact ih h.2 (by omega)

theorem Memory.get_set {lo hi : Nat} {m : Memory} (h : Memory.wfFrom lo hi m) (i : Nat) (v : Byte) (j : Nat) :
    Memory.get (Memory.set m i v) j = if j = i then v else Memory.get m j := by
  induction m generalizing lo with
  | nil => exact Memory.get_cons i v [] j rfl
  | cons p m ih =>
    obtain ⟨k, w⟩ := p
    have h' := h
    simp only [Memory.wfFrom, Bool.and_eq_true, decide_eq_true_eq] at h'
    simp only [Memory.set]
    split
    · rename_i hik
      refine Memory.get_cons i v _ j ?_
      exact Memory.get_of_lt (lo := k) (hi := hi)
        (by simp only [Memory.wfFrom, Bool.and_eq_true, decide_eq_true_eq]
            exact ⟨⟨⟨Nat.le_refl _, h'.1.1.2⟩, h'.1.2⟩, h'.2⟩) hik
    · split
      · rename_i hik
        subst hik
        rw [Memory.get_cons i v m j (Memory.get_of_lt h'.2 (Nat.lt_succ_self i))]
        by_cases hj : j = i
        · simp [hj]
        · simp [hj, Memory.get, Ne.symm hj]
      · rename_i hik
        simp only [Memory.get, ih h'.2]
        by_cases hj : j = i
        · subst hj; simp [Ne.symm hik]
        · simp [hj]

theorem Memory.wfFrom_mono {lo lo' hi : Nat} {m : Memory} (hl : lo' ≤ lo) (h : Memory.wfFrom lo hi m) :
    Memory.wfFrom lo' hi m := by
  cases m with
  | nil => rfl
  | cons p m =>
    simp only [Memory.wfFrom, Bool.and_eq_true, decide_eq_true_eq] at h ⊢
    exact ⟨⟨⟨by omega, h.1.1.2⟩, h.1.2⟩, h.2⟩

theorem Memory.wfFrom_cons {lo hi i : Nat} {m : Memory} (v : Byte) (hlo : lo ≤ i) (hhi : i < hi)
    (h : Memory.wfFrom (i + 1) hi m) : Memory.wfFrom lo hi (Memory.cons i v m) := by
  unfold Memory.cons
  split
  · exact Memory.wfFrom_mono (by omega) h
  · rename_i hv
    simp only [Memory.wfFrom, Bool.and_eq_true, decide_eq_true_eq]
    exact ⟨⟨⟨hlo, hhi⟩, hv⟩, h⟩

theorem Memory.wfFrom_set {lo hi : Nat} {m : Memory} (h : Memory.wfFrom lo hi m) {i : Nat} (v : Byte)
    (hlo : lo ≤ i) (hhi : i < hi) : Memory.wfFrom lo hi (Memory.set m i v) := by
  induction m generalizing lo with
  | nil => exact Memory.wfFrom_cons v hlo hhi rfl
  | cons p m ih =>
    obtain ⟨k, w⟩ := p
    have h' := h
    simp only [Memory.wfFrom, Bool.and_eq_true, decide_eq_true_eq] at h'
    simp only [Memory.set]
    split
    · rename_i hik
      refine Memory.wfFrom_cons v hlo hhi ?_
      simp only [Memory.wfFrom, Bool.and_eq_true, decide_eq_true_eq]
      exact ⟨⟨⟨by omega, h'.1.1.2⟩, h'.1.2⟩, h'.2⟩
    · split
      · rename_i hik
        subst hik
        exact Memory.wfFrom_cons v hlo hhi h'.2
      · rename_i h1 h2
        simp only [Memory.wfFrom, Bool.and_eq_true, decide_eq_true_eq]
        exact ⟨⟨⟨h'.1.1.1, h'.1.1.2⟩, h'.1.2⟩, ih h'.2 (by omega)⟩

/-- An index inside a RAM's window is below its capacity. -/
theorem Ram.index_lt {r : Ram} (h : r.wf) (addr : Addr) : r.index addr < r.capacity := by
  simp only [Ram.wf, Bool.and_eq_true, decide_eq_true_eq] at h
  exact Nat.mod_lt _ h.1

/-- A RAM's write keeps it well formed. -/
theorem Ram.wf_write {r : Ram} (h : r.wf) (addr : Addr) (v : Byte) : (r.write addr v).2.wf := by
  have hi := Ram.index_lt h addr
  unfold Ram.write
  split
  · simp only [Ram.wf, Bool.and_eq_true, decide_eq_true_eq, Memory.wf] at h ⊢
    exact ⟨h.1, Memory.wfFrom_set h.2 v (Nat.zero_le _) hi⟩
  · exact h
  · exact h

end Sys2Proof.Machine
end

