-- ==== Sys2Proof/Laws/State.lean ====
section
/-! SUPPORT. What each field reads after each update of the state. -/

namespace Sys2Proof.Machine

variable (s : State)

@[simp] theorem State.setA_a (v : Byte) : (s.setA v).a = v := rfl
@[simp] theorem State.setA_x (v : Byte) : (s.setA v).x = s.x := rfl
@[simp] theorem State.setA_y (v : Byte) : (s.setA v).y = s.y := rfl
@[simp] theorem State.setA_sp (v : Byte) : (s.setA v).sp = s.sp := rfl
@[simp] theorem State.setA_pc (v : Byte) : (s.setA v).pc = s.pc := rfl
@[simp] theorem State.setA_flags (v : Byte) : (s.setA v).flags = s.flags := rfl
@[simp] theorem State.setA_budget (v : Byte) : (s.setA v).budget = s.budget := rfl
@[simp] theorem State.setA_ea (v : Byte) : (s.setA v).ea = s.ea := rfl
@[simp] theorem State.setA_tag (v : Byte) : (s.setA v).tag = s.tag := rfl
@[simp] theorem State.setA_halted (v : Byte) : (s.setA v).halted = s.halted := rfl
@[simp] theorem State.setA_everReset (v : Byte) : (s.setA v).everReset = s.everReset := rfl
@[simp] theorem State.setA_devices (v : Byte) : (s.setA v).devices = s.devices := rfl
@[simp] theorem State.setA_detached (v : Byte) : (s.setA v).detached = s.detached := rfl
@[simp] theorem State.setA_calls (v : Byte) : (s.setA v).calls = s.calls := rfl
@[simp] theorem State.setA_reply (v : Byte) : (s.setA v).reply = s.reply := rfl
@[simp] theorem State.setA_params (v : Byte) : (s.setA v).params = s.params := rfl

@[simp] theorem State.setX_a (v : Byte) : (s.setX v).a = s.a := rfl
@[simp] theorem State.setX_x (v : Byte) : (s.setX v).x = v := rfl
@[simp] theorem State.setX_y (v : Byte) : (s.setX v).y = s.y := rfl
@[simp] theorem State.setX_sp (v : Byte) : (s.setX v).sp = s.sp := rfl
@[simp] theorem State.setX_pc (v : Byte) : (s.setX v).pc = s.pc := rfl
@[simp] theorem State.setX_flags (v : Byte) : (s.setX v).flags = s.flags := rfl
@[simp] theorem State.setX_budget (v : Byte) : (s.setX v).budget = s.budget := rfl
@[simp] theorem State.setX_ea (v : Byte) : (s.setX v).ea = s.ea := rfl
@[simp] theorem State.setX_tag (v : Byte) : (s.setX v).tag = s.tag := rfl
@[simp] theorem State.setX_halted (v : Byte) : (s.setX v).halted = s.halted := rfl
@[simp] theorem State.setX_everReset (v : Byte) : (s.setX v).everReset = s.everReset := rfl
@[simp] theorem State.setX_devices (v : Byte) : (s.setX v).devices = s.devices := rfl
@[simp] theorem State.setX_detached (v : Byte) : (s.setX v).detached = s.detached := rfl
@[simp] theorem State.setX_calls (v : Byte) : (s.setX v).calls = s.calls := rfl
@[simp] theorem State.setX_reply (v : Byte) : (s.setX v).reply = s.reply := rfl
@[simp] theorem State.setX_params (v : Byte) : (s.setX v).params = s.params := rfl

@[simp] theorem State.setY_a (v : Byte) : (s.setY v).a = s.a := rfl
@[simp] theorem State.setY_x (v : Byte) : (s.setY v).x = s.x := rfl
@[simp] theorem State.setY_y (v : Byte) : (s.setY v).y = v := rfl
@[simp] theorem State.setY_sp (v : Byte) : (s.setY v).sp = s.sp := rfl
@[simp] theorem State.setY_pc (v : Byte) : (s.setY v).pc = s.pc := rfl
@[simp] theorem State.setY_flags (v : Byte) : (s.setY v).flags = s.flags := rfl
@[simp] theorem State.setY_budget (v : Byte) : (s.setY v).budget = s.budget := rfl
@[simp] theorem State.setY_ea (v : Byte) : (s.setY v).ea = s.ea := rfl
@[simp] theorem State.setY_tag (v : Byte) : (s.setY v).tag = s.tag := rfl
@[simp] theorem State.setY_halted (v : Byte) : (s.setY v).halted = s.halted := rfl
@[simp] theorem State.setY_everReset (v : Byte) : (s.setY v).everReset = s.everReset := rfl
@[simp] theorem State.setY_devices (v : Byte) : (s.setY v).devices = s.devices := rfl
@[simp] theorem State.setY_detached (v : Byte) : (s.setY v).detached = s.detached := rfl
@[simp] theorem State.setY_calls (v : Byte) : (s.setY v).calls = s.calls := rfl
@[simp] theorem State.setY_reply (v : Byte) : (s.setY v).reply = s.reply := rfl
@[simp] theorem State.setY_params (v : Byte) : (s.setY v).params = s.params := rfl

@[simp] theorem State.setSp_a (v : Byte) : (s.setSp v).a = s.a := rfl
@[simp] theorem State.setSp_x (v : Byte) : (s.setSp v).x = s.x := rfl
@[simp] theorem State.setSp_y (v : Byte) : (s.setSp v).y = s.y := rfl
@[simp] theorem State.setSp_sp (v : Byte) : (s.setSp v).sp = v := rfl
@[simp] theorem State.setSp_pc (v : Byte) : (s.setSp v).pc = s.pc := rfl
@[simp] theorem State.setSp_flags (v : Byte) : (s.setSp v).flags = s.flags := rfl
@[simp] theorem State.setSp_budget (v : Byte) : (s.setSp v).budget = s.budget := rfl
@[simp] theorem State.setSp_ea (v : Byte) : (s.setSp v).ea = s.ea := rfl
@[simp] theorem State.setSp_tag (v : Byte) : (s.setSp v).tag = s.tag := rfl
@[simp] theorem State.setSp_halted (v : Byte) : (s.setSp v).halted = s.halted := rfl
@[simp] theorem State.setSp_everReset (v : Byte) : (s.setSp v).everReset = s.everReset := rfl
@[simp] theorem State.setSp_devices (v : Byte) : (s.setSp v).devices = s.devices := rfl
@[simp] theorem State.setSp_detached (v : Byte) : (s.setSp v).detached = s.detached := rfl
@[simp] theorem State.setSp_calls (v : Byte) : (s.setSp v).calls = s.calls := rfl
@[simp] theorem State.setSp_reply (v : Byte) : (s.setSp v).reply = s.reply := rfl
@[simp] theorem State.setSp_params (v : Byte) : (s.setSp v).params = s.params := rfl

@[simp] theorem State.setPc_a (v : Addr) : (s.setPc v).a = s.a := rfl
@[simp] theorem State.setPc_x (v : Addr) : (s.setPc v).x = s.x := rfl
@[simp] theorem State.setPc_y (v : Addr) : (s.setPc v).y = s.y := rfl
@[simp] theorem State.setPc_sp (v : Addr) : (s.setPc v).sp = s.sp := rfl
@[simp] theorem State.setPc_pc (v : Addr) : (s.setPc v).pc = v := rfl
@[simp] theorem State.setPc_flags (v : Addr) : (s.setPc v).flags = s.flags := rfl
@[simp] theorem State.setPc_budget (v : Addr) : (s.setPc v).budget = s.budget := rfl
@[simp] theorem State.setPc_ea (v : Addr) : (s.setPc v).ea = s.ea := rfl
@[simp] theorem State.setPc_tag (v : Addr) : (s.setPc v).tag = s.tag := rfl
@[simp] theorem State.setPc_halted (v : Addr) : (s.setPc v).halted = s.halted := rfl
@[simp] theorem State.setPc_everReset (v : Addr) : (s.setPc v).everReset = s.everReset := rfl
@[simp] theorem State.setPc_devices (v : Addr) : (s.setPc v).devices = s.devices := rfl
@[simp] theorem State.setPc_detached (v : Addr) : (s.setPc v).detached = s.detached := rfl
@[simp] theorem State.setPc_calls (v : Addr) : (s.setPc v).calls = s.calls := rfl
@[simp] theorem State.setPc_reply (v : Addr) : (s.setPc v).reply = s.reply := rfl
@[simp] theorem State.setPc_params (v : Addr) : (s.setPc v).params = s.params := rfl

@[simp] theorem State.setFlags_a (v : Flags) : (s.setFlags v).a = s.a := rfl
@[simp] theorem State.setFlags_x (v : Flags) : (s.setFlags v).x = s.x := rfl
@[simp] theorem State.setFlags_y (v : Flags) : (s.setFlags v).y = s.y := rfl
@[simp] theorem State.setFlags_sp (v : Flags) : (s.setFlags v).sp = s.sp := rfl
@[simp] theorem State.setFlags_pc (v : Flags) : (s.setFlags v).pc = s.pc := rfl
@[simp] theorem State.setFlags_flags (v : Flags) : (s.setFlags v).flags = v := rfl
@[simp] theorem State.setFlags_budget (v : Flags) : (s.setFlags v).budget = s.budget := rfl
@[simp] theorem State.setFlags_ea (v : Flags) : (s.setFlags v).ea = s.ea := rfl
@[simp] theorem State.setFlags_tag (v : Flags) : (s.setFlags v).tag = s.tag := rfl
@[simp] theorem State.setFlags_halted (v : Flags) : (s.setFlags v).halted = s.halted := rfl
@[simp] theorem State.setFlags_everReset (v : Flags) : (s.setFlags v).everReset = s.everReset := rfl
@[simp] theorem State.setFlags_devices (v : Flags) : (s.setFlags v).devices = s.devices := rfl
@[simp] theorem State.setFlags_detached (v : Flags) : (s.setFlags v).detached = s.detached := rfl
@[simp] theorem State.setFlags_calls (v : Flags) : (s.setFlags v).calls = s.calls := rfl
@[simp] theorem State.setFlags_reply (v : Flags) : (s.setFlags v).reply = s.reply := rfl
@[simp] theorem State.setFlags_params (v : Flags) : (s.setFlags v).params = s.params := rfl

@[simp] theorem State.setBudget_a (v : Nat) : (s.setBudget v).a = s.a := rfl
@[simp] theorem State.setBudget_x (v : Nat) : (s.setBudget v).x = s.x := rfl
@[simp] theorem State.setBudget_y (v : Nat) : (s.setBudget v).y = s.y := rfl
@[simp] theorem State.setBudget_sp (v : Nat) : (s.setBudget v).sp = s.sp := rfl
@[simp] theorem State.setBudget_pc (v : Nat) : (s.setBudget v).pc = s.pc := rfl
@[simp] theorem State.setBudget_flags (v : Nat) : (s.setBudget v).flags = s.flags := rfl
@[simp] theorem State.setBudget_budget (v : Nat) : (s.setBudget v).budget = v := rfl
@[simp] theorem State.setBudget_ea (v : Nat) : (s.setBudget v).ea = s.ea := rfl
@[simp] theorem State.setBudget_tag (v : Nat) : (s.setBudget v).tag = s.tag := rfl
@[simp] theorem State.setBudget_halted (v : Nat) : (s.setBudget v).halted = s.halted := rfl
@[simp] theorem State.setBudget_everReset (v : Nat) : (s.setBudget v).everReset = s.everReset := rfl
@[simp] theorem State.setBudget_devices (v : Nat) : (s.setBudget v).devices = s.devices := rfl
@[simp] theorem State.setBudget_detached (v : Nat) : (s.setBudget v).detached = s.detached := rfl
@[simp] theorem State.setBudget_calls (v : Nat) : (s.setBudget v).calls = s.calls := rfl
@[simp] theorem State.setBudget_reply (v : Nat) : (s.setBudget v).reply = s.reply := rfl
@[simp] theorem State.setBudget_params (v : Nat) : (s.setBudget v).params = s.params := rfl

@[simp] theorem State.setEa_a (v : Addr) : (s.setEa v).a = s.a := rfl
@[simp] theorem State.setEa_x (v : Addr) : (s.setEa v).x = s.x := rfl
@[simp] theorem State.setEa_y (v : Addr) : (s.setEa v).y = s.y := rfl
@[simp] theorem State.setEa_sp (v : Addr) : (s.setEa v).sp = s.sp := rfl
@[simp] theorem State.setEa_pc (v : Addr) : (s.setEa v).pc = s.pc := rfl
@[simp] theorem State.setEa_flags (v : Addr) : (s.setEa v).flags = s.flags := rfl
@[simp] theorem State.setEa_budget (v : Addr) : (s.setEa v).budget = s.budget := rfl
@[simp] theorem State.setEa_ea (v : Addr) : (s.setEa v).ea = v := rfl
@[simp] theorem State.setEa_tag (v : Addr) : (s.setEa v).tag = s.tag := rfl
@[simp] theorem State.setEa_halted (v : Addr) : (s.setEa v).halted = s.halted := rfl
@[simp] theorem State.setEa_everReset (v : Addr) : (s.setEa v).everReset = s.everReset := rfl
@[simp] theorem State.setEa_devices (v : Addr) : (s.setEa v).devices = s.devices := rfl
@[simp] theorem State.setEa_detached (v : Addr) : (s.setEa v).detached = s.detached := rfl
@[simp] theorem State.setEa_calls (v : Addr) : (s.setEa v).calls = s.calls := rfl
@[simp] theorem State.setEa_reply (v : Addr) : (s.setEa v).reply = s.reply := rfl
@[simp] theorem State.setEa_params (v : Addr) : (s.setEa v).params = s.params := rfl

@[simp] theorem State.setTag_a (v : Tag) : (s.setTag v).a = s.a := rfl
@[simp] theorem State.setTag_x (v : Tag) : (s.setTag v).x = s.x := rfl
@[simp] theorem State.setTag_y (v : Tag) : (s.setTag v).y = s.y := rfl
@[simp] theorem State.setTag_sp (v : Tag) : (s.setTag v).sp = s.sp := rfl
@[simp] theorem State.setTag_pc (v : Tag) : (s.setTag v).pc = s.pc := rfl
@[simp] theorem State.setTag_flags (v : Tag) : (s.setTag v).flags = s.flags := rfl
@[simp] theorem State.setTag_budget (v : Tag) : (s.setTag v).budget = s.budget := rfl
@[simp] theorem State.setTag_ea (v : Tag) : (s.setTag v).ea = s.ea := rfl
@[simp] theorem State.setTag_tag (v : Tag) : (s.setTag v).tag = v := rfl
@[simp] theorem State.setTag_halted (v : Tag) : (s.setTag v).halted = s.halted := rfl
@[simp] theorem State.setTag_everReset (v : Tag) : (s.setTag v).everReset = s.everReset := rfl
@[simp] theorem State.setTag_devices (v : Tag) : (s.setTag v).devices = s.devices := rfl
@[simp] theorem State.setTag_detached (v : Tag) : (s.setTag v).detached = s.detached := rfl
@[simp] theorem State.setTag_calls (v : Tag) : (s.setTag v).calls = s.calls := rfl
@[simp] theorem State.setTag_reply (v : Tag) : (s.setTag v).reply = s.reply := rfl
@[simp] theorem State.setTag_params (v : Tag) : (s.setTag v).params = s.params := rfl

@[simp] theorem State.setHalted_a (v : Option Fault) : (s.setHalted v).a = s.a := rfl
@[simp] theorem State.setHalted_x (v : Option Fault) : (s.setHalted v).x = s.x := rfl
@[simp] theorem State.setHalted_y (v : Option Fault) : (s.setHalted v).y = s.y := rfl
@[simp] theorem State.setHalted_sp (v : Option Fault) : (s.setHalted v).sp = s.sp := rfl
@[simp] theorem State.setHalted_pc (v : Option Fault) : (s.setHalted v).pc = s.pc := rfl
@[simp] theorem State.setHalted_flags (v : Option Fault) : (s.setHalted v).flags = s.flags := rfl
@[simp] theorem State.setHalted_budget (v : Option Fault) : (s.setHalted v).budget = s.budget := rfl
@[simp] theorem State.setHalted_ea (v : Option Fault) : (s.setHalted v).ea = s.ea := rfl
@[simp] theorem State.setHalted_tag (v : Option Fault) : (s.setHalted v).tag = s.tag := rfl
@[simp] theorem State.setHalted_halted (v : Option Fault) : (s.setHalted v).halted = v := rfl
@[simp] theorem State.setHalted_everReset (v : Option Fault) : (s.setHalted v).everReset = s.everReset := rfl
@[simp] theorem State.setHalted_devices (v : Option Fault) : (s.setHalted v).devices = s.devices := rfl
@[simp] theorem State.setHalted_detached (v : Option Fault) : (s.setHalted v).detached = s.detached := rfl
@[simp] theorem State.setHalted_calls (v : Option Fault) : (s.setHalted v).calls = s.calls := rfl
@[simp] theorem State.setHalted_reply (v : Option Fault) : (s.setHalted v).reply = s.reply := rfl
@[simp] theorem State.setHalted_params (v : Option Fault) : (s.setHalted v).params = s.params := rfl

@[simp] theorem State.setEverReset_a (v : Bool) : (s.setEverReset v).a = s.a := rfl
@[simp] theorem State.setEverReset_x (v : Bool) : (s.setEverReset v).x = s.x := rfl
@[simp] theorem State.setEverReset_y (v : Bool) : (s.setEverReset v).y = s.y := rfl
@[simp] theorem State.setEverReset_sp (v : Bool) : (s.setEverReset v).sp = s.sp := rfl
@[simp] theorem State.setEverReset_pc (v : Bool) : (s.setEverReset v).pc = s.pc := rfl
@[simp] theorem State.setEverReset_flags (v : Bool) : (s.setEverReset v).flags = s.flags := rfl
@[simp] theorem State.setEverReset_budget (v : Bool) : (s.setEverReset v).budget = s.budget := rfl
@[simp] theorem State.setEverReset_ea (v : Bool) : (s.setEverReset v).ea = s.ea := rfl
@[simp] theorem State.setEverReset_tag (v : Bool) : (s.setEverReset v).tag = s.tag := rfl
@[simp] theorem State.setEverReset_halted (v : Bool) : (s.setEverReset v).halted = s.halted := rfl
@[simp] theorem State.setEverReset_everReset (v : Bool) : (s.setEverReset v).everReset = v := rfl
@[simp] theorem State.setEverReset_devices (v : Bool) : (s.setEverReset v).devices = s.devices := rfl
@[simp] theorem State.setEverReset_detached (v : Bool) : (s.setEverReset v).detached = s.detached := rfl
@[simp] theorem State.setEverReset_calls (v : Bool) : (s.setEverReset v).calls = s.calls := rfl
@[simp] theorem State.setEverReset_reply (v : Bool) : (s.setEverReset v).reply = s.reply := rfl
@[simp] theorem State.setEverReset_params (v : Bool) : (s.setEverReset v).params = s.params := rfl

@[simp] theorem State.setDevices_a (v : List Device) : (s.setDevices v).a = s.a := rfl
@[simp] theorem State.setDevices_x (v : List Device) : (s.setDevices v).x = s.x := rfl
@[simp] theorem State.setDevices_y (v : List Device) : (s.setDevices v).y = s.y := rfl
@[simp] theorem State.setDevices_sp (v : List Device) : (s.setDevices v).sp = s.sp := rfl
@[simp] theorem State.setDevices_pc (v : List Device) : (s.setDevices v).pc = s.pc := rfl
@[simp] theorem State.setDevices_flags (v : List Device) : (s.setDevices v).flags = s.flags := rfl
@[simp] theorem State.setDevices_budget (v : List Device) : (s.setDevices v).budget = s.budget := rfl
@[simp] theorem State.setDevices_ea (v : List Device) : (s.setDevices v).ea = s.ea := rfl
@[simp] theorem State.setDevices_tag (v : List Device) : (s.setDevices v).tag = s.tag := rfl
@[simp] theorem State.setDevices_halted (v : List Device) : (s.setDevices v).halted = s.halted := rfl
@[simp] theorem State.setDevices_everReset (v : List Device) : (s.setDevices v).everReset = s.everReset := rfl
@[simp] theorem State.setDevices_devices (v : List Device) : (s.setDevices v).devices = v := rfl
@[simp] theorem State.setDevices_detached (v : List Device) : (s.setDevices v).detached = s.detached := rfl
@[simp] theorem State.setDevices_calls (v : List Device) : (s.setDevices v).calls = s.calls := rfl
@[simp] theorem State.setDevices_reply (v : List Device) : (s.setDevices v).reply = s.reply := rfl
@[simp] theorem State.setDevices_params (v : List Device) : (s.setDevices v).params = s.params := rfl

@[simp] theorem State.setDetached_a (v : List Device) : (s.setDetached v).a = s.a := rfl
@[simp] theorem State.setDetached_x (v : List Device) : (s.setDetached v).x = s.x := rfl
@[simp] theorem State.setDetached_y (v : List Device) : (s.setDetached v).y = s.y := rfl
@[simp] theorem State.setDetached_sp (v : List Device) : (s.setDetached v).sp = s.sp := rfl
@[simp] theorem State.setDetached_pc (v : List Device) : (s.setDetached v).pc = s.pc := rfl
@[simp] theorem State.setDetached_flags (v : List Device) : (s.setDetached v).flags = s.flags := rfl
@[simp] theorem State.setDetached_budget (v : List Device) : (s.setDetached v).budget = s.budget := rfl
@[simp] theorem State.setDetached_ea (v : List Device) : (s.setDetached v).ea = s.ea := rfl
@[simp] theorem State.setDetached_tag (v : List Device) : (s.setDetached v).tag = s.tag := rfl
@[simp] theorem State.setDetached_halted (v : List Device) : (s.setDetached v).halted = s.halted := rfl
@[simp] theorem State.setDetached_everReset (v : List Device) : (s.setDetached v).everReset = s.everReset := rfl
@[simp] theorem State.setDetached_devices (v : List Device) : (s.setDetached v).devices = s.devices := rfl
@[simp] theorem State.setDetached_detached (v : List Device) : (s.setDetached v).detached = v := rfl
@[simp] theorem State.setDetached_calls (v : List Device) : (s.setDetached v).calls = s.calls := rfl
@[simp] theorem State.setDetached_reply (v : List Device) : (s.setDetached v).reply = s.reply := rfl
@[simp] theorem State.setDetached_params (v : List Device) : (s.setDetached v).params = s.params := rfl

@[simp] theorem State.setCalls_a (v : List HostCall) : (s.setCalls v).a = s.a := rfl
@[simp] theorem State.setCalls_x (v : List HostCall) : (s.setCalls v).x = s.x := rfl
@[simp] theorem State.setCalls_y (v : List HostCall) : (s.setCalls v).y = s.y := rfl
@[simp] theorem State.setCalls_sp (v : List HostCall) : (s.setCalls v).sp = s.sp := rfl
@[simp] theorem State.setCalls_pc (v : List HostCall) : (s.setCalls v).pc = s.pc := rfl
@[simp] theorem State.setCalls_flags (v : List HostCall) : (s.setCalls v).flags = s.flags := rfl
@[simp] theorem State.setCalls_budget (v : List HostCall) : (s.setCalls v).budget = s.budget := rfl
@[simp] theorem State.setCalls_ea (v : List HostCall) : (s.setCalls v).ea = s.ea := rfl
@[simp] theorem State.setCalls_tag (v : List HostCall) : (s.setCalls v).tag = s.tag := rfl
@[simp] theorem State.setCalls_halted (v : List HostCall) : (s.setCalls v).halted = s.halted := rfl
@[simp] theorem State.setCalls_everReset (v : List HostCall) : (s.setCalls v).everReset = s.everReset := rfl
@[simp] theorem State.setCalls_devices (v : List HostCall) : (s.setCalls v).devices = s.devices := rfl
@[simp] theorem State.setCalls_detached (v : List HostCall) : (s.setCalls v).detached = s.detached := rfl
@[simp] theorem State.setCalls_calls (v : List HostCall) : (s.setCalls v).calls = v := rfl
@[simp] theorem State.setCalls_reply (v : List HostCall) : (s.setCalls v).reply = s.reply := rfl
@[simp] theorem State.setCalls_params (v : List HostCall) : (s.setCalls v).params = s.params := rfl

@[simp] theorem State.setReply_a (v : HostReply) : (s.setReply v).a = s.a := rfl
@[simp] theorem State.setReply_x (v : HostReply) : (s.setReply v).x = s.x := rfl
@[simp] theorem State.setReply_y (v : HostReply) : (s.setReply v).y = s.y := rfl
@[simp] theorem State.setReply_sp (v : HostReply) : (s.setReply v).sp = s.sp := rfl
@[simp] theorem State.setReply_pc (v : HostReply) : (s.setReply v).pc = s.pc := rfl
@[simp] theorem State.setReply_flags (v : HostReply) : (s.setReply v).flags = s.flags := rfl
@[simp] theorem State.setReply_budget (v : HostReply) : (s.setReply v).budget = s.budget := rfl
@[simp] theorem State.setReply_ea (v : HostReply) : (s.setReply v).ea = s.ea := rfl
@[simp] theorem State.setReply_tag (v : HostReply) : (s.setReply v).tag = s.tag := rfl
@[simp] theorem State.setReply_halted (v : HostReply) : (s.setReply v).halted = s.halted := rfl
@[simp] theorem State.setReply_everReset (v : HostReply) : (s.setReply v).everReset = s.everReset := rfl
@[simp] theorem State.setReply_devices (v : HostReply) : (s.setReply v).devices = s.devices := rfl
@[simp] theorem State.setReply_detached (v : HostReply) : (s.setReply v).detached = s.detached := rfl
@[simp] theorem State.setReply_calls (v : HostReply) : (s.setReply v).calls = s.calls := rfl
@[simp] theorem State.setReply_reply (v : HostReply) : (s.setReply v).reply = v := rfl
@[simp] theorem State.setReply_params (v : HostReply) : (s.setReply v).params = s.params := rfl

end Sys2Proof.Machine
end

