-- ==== Sys2Proof/Laws/Bus.lean ====
section
/-! SUPPORT. The laws of the Bus: what a read and a write keep of the device list, and what a byte
reads as after a store. -/

namespace Sys2Proof.Machine

/-! ## What an access keeps, device by device -/

@[simp] theorem Device.read_handle (addr : Addr) (d : Device) : (d.read addr).2.handle = d.handle := by
  cases d with
  | external id e => simp only [Device.read]; split <;> rfl
  | _ => rfl

@[simp] theorem Device.write_handle (addr : Addr) (v : Byte) (d : Device) :
    (d.write addr v).2.handle = d.handle := by
  cases d with
  | external id e => simp only [Device.write]; split <;> rfl
  | ram id r => simp only [Device.write]; split <;> rfl
  | _ => rfl

@[simp] theorem Device.tick_handle (d : Device) : d.tick.handle = d.handle := by
  cases d with
  | external id e => simp only [Device.tick]; split <;> rfl
  | _ => rfl

@[simp] theorem Device.read_isQuiet (addr : Addr) (d : Device) : (d.read addr).2.isQuiet = d.isQuiet := by
  cases d with
  | external id e => simp only [Device.read]; split <;> rfl
  | _ => rfl

@[simp] theorem Device.write_isQuiet (addr : Addr) (v : Byte) (d : Device) :
    (d.write addr v).2.isQuiet = d.isQuiet := by
  cases d with
  | external id e => simp only [Device.write]; split <;> rfl
  | ram id r => simp only [Device.write]; split <;> rfl
  | _ => rfl

@[simp] theorem Device.read_wf (addr : Addr) (d : Device) : (d.read addr).2.wf = d.wf := by
  cases d with
  | external id e => simp only [Device.read]; split <;> rfl
  | _ => rfl

theorem Device.write_wf {d : Device} (h : d.wf) (addr : Addr) (v : Byte) : (d.write addr v).2.wf := by
  cases d with
  | external id e => simp only [Device.write]; split <;> rfl
  | ram id r =>
    simp only [Device.write]
    split
    · exact Ram.wf_write h addr v
    · exact h
  | _ => rfl

@[simp] theorem Device.tick_wf (d : Device) : d.tick.wf = d.wf := by
  cases d with
  | external id e => simp only [Device.tick]; split <;> rfl
  | _ => rfl

theorem Device.read_of_quiet {d : Device} (h : d.isQuiet) (addr : Addr) : (d.read addr).2 = d := by
  cases d with
  | external id e => cases h
  | _ => rfl

theorem Device.write_withoutCells {d : Device} (h : d.isQuiet) (addr : Addr) (v : Byte) :
    (d.write addr v).2.withoutCells = d.withoutCells := by
  cases d with
  | external id e => cases h
  | ram id r =>
    simp only [Device.write, Ram.write]
    split
    · split <;> rfl
    · rfl
  | _ => rfl

/-- Two devices that differ at most in a RAM's bytes are asked and answer at the same addresses. -/
theorem Device.isQuiet_of_withoutCells {d e : Device} (h : d.withoutCells = e.withoutCells) :
    d.isQuiet = e.isQuiet := by
  cases d <;> cases e <;> simp_all [Device.withoutCells, Device.isQuiet]

/-! ## What an access keeps of the list -/

/-- What every device keeps in a read, the list keeps. -/
theorem busRead_map {α : Type} (f : Device → α) (addr : Addr) (ds : List Device)
    (h : ∀ d ∈ ds, f (d.read addr).2 = f d) : (busRead addr ds).2.map f = ds.map f := by
  induction ds with
  | nil => rfl
  | cons d ds ih =>
    simp only [busRead]
    have hd := h d (by simp)
    have hds := ih fun e he => h e (by simp [he])
    split <;> simp [hd, hds]

/-- What every device keeps in a write, the list keeps. -/
theorem busWrite_map {α : Type} (f : Device → α) (addr : Addr) (v : Byte) (ds : List Device)
    (h : ∀ d ∈ ds, f (d.write addr v).2 = f d) : (busWrite addr v ds).2.map f = ds.map f := by
  induction ds with
  | nil => rfl
  | cons d ds ih =>
    simp only [busWrite]
    have hd := h d (by simp)
    have hds := ih fun e he => h e (by simp [he])
    split <;> simp [hd, hds]

theorem all_eq_of_map {f : Device → Bool} {ds es : List Device} (h : ds.map f = es.map f) :
    ds.all f = es.all f := by
  rw [← Function.id_comp f, ← List.all_map, ← List.all_map, h]

@[simp] theorem busRead_handles (addr : Addr) (ds : List Device) :
    (busRead addr ds).2.map Device.handle = ds.map Device.handle :=
  busRead_map _ _ _ fun d _ => d.read_handle addr

@[simp] theorem busWrite_handles (addr : Addr) (v : Byte) (ds : List Device) :
    (busWrite addr v ds).2.map Device.handle = ds.map Device.handle :=
  busWrite_map _ _ _ _ fun d _ => d.write_handle addr v

@[simp] theorem busRead_wf (addr : Addr) (ds : List Device) :
    (busRead addr ds).2.all Device.wf = ds.all Device.wf :=
  all_eq_of_map (busRead_map _ _ _ fun d _ => d.read_wf addr)

theorem busWrite_wf {ds : List Device} (h : ds.all Device.wf) (addr : Addr) (v : Byte) :
    (busWrite addr v ds).2.all Device.wf := by
  induction ds with
  | nil => rfl
  | cons d ds ih =>
    simp only [List.all_cons, Bool.and_eq_true] at h
    simp only [busWrite]
    split <;> simp [Device.write_wf h.1, h.2, ih h.2]

@[simp] theorem busWrite_isQuiet (addr : Addr) (v : Byte) (ds : List Device) :
    (busWrite addr v ds).2.all Device.isQuiet = ds.all Device.isQuiet :=
  all_eq_of_map (busWrite_map _ _ _ _ fun d _ => d.write_isQuiet addr v)

theorem busWrite_withoutCells {ds : List Device} (h : ds.all Device.isQuiet) (addr : Addr) (v : Byte) :
    (busWrite addr v ds).2.map Device.withoutCells = ds.map Device.withoutCells :=
  busWrite_map _ _ _ _ fun _ hd => Device.write_withoutCells (List.all_eq_true.mp h _ hd) addr v

/-- No read changes a byte of a RAM, on any bus. -/
@[simp] theorem busRead_ramContents (addr : Addr) (ds : List Device) :
    ramContents (busRead addr ds).2 = ramContents ds := by
  induction ds with
  | nil => rfl
  | cons d ds ih =>
    simp only [busRead]
    cases d with
    | external id e =>
      simp only [Device.read]
      split <;> (split <;> simp [ramContents, ih])
    | ram id r => simp only [Device.read]; split <;> simp [ramContents, ih]
    | _ => simp [Device.read, ramContents, ih]

/-- A read on a bus of described devices changes nothing. -/
theorem busRead_of_quiet {ds : List Device} (h : ds.all Device.isQuiet) (addr : Addr) :
    (busRead addr ds).2 = ds := by
  have := busRead_map id addr ds fun d hd => Device.read_of_quiet (List.all_eq_true.mp h d hd) addr
  simpa using this

theorem memRead_of_quiet {s : State} (h : s.quiet) (addr : Addr) : memRead addr s = (s.peek addr, s) := by
  unfold State.peek memRead
  simp only [busRead_of_quiet h]
  rfl

theorem withRead_of_quiet {α : Type} {s : State} (h : s.quiet) (addr : Addr) (k : Byte → State → α) :
    withRead addr s k = k (s.peek addr) s := by
  rw [withRead, memRead_of_quiet h]

/-! ## The cell an address reaches -/

theorem nextCell_injective : Function.Injective nextCell := by
  rintro ⟨a, b⟩ ⟨c, d⟩ h
  simp only [nextCell, Prod.mk.injEq, Nat.add_right_cancel_iff] at h
  simp [h]

@[simp] theorem map_nextCell_inj {p q : Option (Nat × Nat)} : p.map nextCell = q.map nextCell ↔ p = q :=
  (Option.map_injective nextCell_injective).eq_iff

@[simp] theorem some_zero_ne_map_nextCell (i : Nat) (p : Option (Nat × Nat)) :
    some (0, i) ≠ p.map nextCell := by
  cases p <;> simp [nextCell]

/-- Which cell a read reaches does not depend on the bytes. -/
theorem readCell_congr (addr : Addr) : ∀ {ds es : List Device},
    ds.map Device.withoutCells = es.map Device.withoutCells → readCell addr ds = readCell addr es
  | [], [], _ => rfl
  | [], _ :: _, h => by simp at h
  | _ :: _, [], h => by simp at h
  | d :: ds, e :: es, h => by
    simp only [List.map_cons, List.cons.injEq] at h
    have ih := readCell_congr addr h.2
    have h1 := h.1
    cases d with
    | ram id r =>
      cases e with
      | ram id' r' =>
        obtain ⟨lo, hi, cap, fw, ow, cells⟩ := r
        obtain ⟨lo', hi', cap', fw', ow', cells'⟩ := r'
        simp only [Device.withoutCells, Device.ram.injEq, Ram.mk.injEq] at h1
        obtain ⟨_, rfl, rfl, rfl, rfl, _, _⟩ := h1
        simp only [readCell, ih, Ram.claims, Ram.index]
      | _ => simp [Device.withoutCells] at h1
    | _ => cases e <;> simp_all [Device.withoutCells, readCell]

/-- Which cell a write reaches does not depend on the bytes. -/
theorem writeCell_congr (addr : Addr) : ∀ {ds es : List Device},
    ds.map Device.withoutCells = es.map Device.withoutCells → writeCell addr ds = writeCell addr es
  | [], [], _ => rfl
  | [], _ :: _, h => by simp at h
  | _ :: _, [], h => by simp at h
  | d :: ds, e :: es, h => by
    simp only [List.map_cons, List.cons.injEq] at h
    have ih := writeCell_congr addr h.2
    have h1 := h.1
    cases d with
    | ram id r =>
      cases e with
      | ram id' r' =>
        obtain ⟨lo, hi, cap, fw, ow, cells⟩ := r
        obtain ⟨lo', hi', cap', fw', ow', cells'⟩ := r'
        simp only [Device.withoutCells, Device.ram.injEq, Ram.mk.injEq] at h1
        obtain ⟨_, rfl, rfl, rfl, rfl, rfl, _⟩ := h1
        simp only [writeCell, ih, Ram.claims, Ram.index]
      | _ => simp [Device.withoutCells] at h1
    | _ => cases e <;> simp_all [Device.withoutCells, writeCell]

theorem State.reaches_congr {s t : State}
    (h : t.devices.map Device.withoutCells = s.devices.map Device.withoutCells) (target addr : Addr) :
    t.reaches target addr = s.reaches target addr := by
  simp only [State.reaches, readCell_congr addr h, writeCell_congr target h]

/-- A read that reaches no cell of a RAM gets no answer from a bus of described devices. -/
theorem busRead_none {ds : List Device} (hq : ds.all Device.isQuiet) {addr : Addr}
    (h : readCell addr ds = none) : (busRead addr ds).1 = none := by
  induction ds with
  | nil => rfl
  | cons d ds ih =>
    simp only [List.all_cons, Bool.and_eq_true] at hq
    cases d with
    | external id e => cases hq.1
    | ram id r =>
      simp only [readCell] at h
      split at h
      · cases h
      · rename_i hc
        simp only [busRead, Device.read, hc]
        exact ih hq.2 (by simpa using h)
    | _ => simpa [busRead, Device.read] using ih hq.2 (by simpa [readCell] using h)

/-- A RAM at the head of the list answers a read inside its window. -/
theorem busRead_ram (addr : Addr) (id : Nat) (r : Ram) (ds : List Device) :
    (busRead addr (.ram id r :: ds)).1 =
      if r.claims addr then some (Memory.get r.cells (r.index addr)) else (busRead addr ds).1 := by
  by_cases h : r.claims addr <;> simp [busRead, Device.read, h]

/-- The bytes a RAM holds after a write it is offered. -/
theorem Ram.get_write {r : Ram} (h : r.wf) (target : Addr) (v : Byte) (i : Nat) :
    Memory.get (r.write target v).2.cells i =
      if r.onWrite = .stores ∧ i = r.index target then v else Memory.get r.cells i := by
  simp only [Ram.wf, Bool.and_eq_true, Memory.wf] at h
  cases hm : r.onWrite <;> simp [Ram.write, hm, Memory.get_set h.2]

@[simp] theorem Ram.write_claims (target : Addr) (v : Byte) (r : Ram) (addr : Addr) :
    (r.write target v).2.claims addr = r.claims addr := by
  cases hm : r.onWrite <;> simp [Ram.write, hm, Ram.claims]

@[simp] theorem Ram.write_index (target : Addr) (v : Byte) (r : Ram) (addr : Addr) :
    (r.write target v).2.index addr = r.index addr := by
  cases hm : r.onWrite <;> simp [Ram.write, hm, Ram.index]

/-- One byte after a store: the stored byte where the store reaches it, and as before elsewhere. -/
theorem busRead_busWrite {ds : List Device} (hq : ds.all Device.isQuiet) (hw : ds.all Device.wf)
    (target addr : Addr) (v : Byte) :
    (busRead addr (busWrite target v ds).2).1 =
      if (writeCell target ds).isSome ∧ readCell addr ds = writeCell target ds then some v
      else (busRead addr ds).1 := by
  induction ds with
  | nil => simp [busWrite, writeCell]
  | cons d ds ih =>
    simp only [List.all_cons, Bool.and_eq_true] at hq hw
    have ih := ih hq.2 hw.2
    cases d with
    | external id e => cases hq.1
    | cpu => simpa [busRead, busWrite, Device.read, Device.write, readCell, writeCell] using ih
    | counter id n => simpa [busRead, busWrite, Device.read, Device.write, readCell, writeCell] using ih
    | ram id r =>
      have hget := Ram.get_write (r := r) hw.1 target v (r.index addr)
      have hr : readCell addr (.ram id r :: ds) =
        if r.claims addr then some (0, r.index addr) else (readCell addr ds).map nextCell := rfl
      rw [busRead_ram, hr]
      by_cases ht : r.claims target
      · cases hm : r.onWrite with
        | stores =>
          have hwc : writeCell target (.ram id r :: ds) = some (0, r.index target) := by simp [writeCell, ht, hm]
          have hbw : busWrite target v (.ram id r :: ds) = (true, .ram id (r.write target v).2 :: ds) := by
            simp [busWrite, Device.write, ht, Ram.write, hm]
          rw [hbw, busRead_ram, Ram.write_claims, Ram.write_index, hget, hwc, hm]
          by_cases ha : r.claims addr
          · by_cases hi : r.index addr = r.index target <;> simp [ha, hi]
          · simp [ha, (some_zero_ne_map_nextCell _ _).symm]
        | ignores =>
          have hwc : writeCell target (.ram id r :: ds) = none := by simp [writeCell, ht, hm]
          have hbw : busWrite target v (.ram id r :: ds) = (true, .ram id (r.write target v).2 :: ds) := by
            simp [busWrite, Device.write, ht, Ram.write, hm]
          rw [hbw, busRead_ram, Ram.write_claims, Ram.write_index, hget, hwc, hm]
          simp
        | declines =>
          have hwc : writeCell target (.ram id r :: ds) = (writeCell target ds).map nextCell := by
            simp [writeCell, ht, hm]
          have hbw : (busWrite target v (.ram id r :: ds)).2 = .ram id r :: (busWrite target v ds).2 := by
            simp [busWrite, Device.write, ht, Ram.write, hm]
          rw [hbw, busRead_ram, ih, hwc]
          by_cases ha : r.claims addr <;> simp [ha, nextCell]
      · have hwc : writeCell target (.ram id r :: ds) = (writeCell target ds).map nextCell := by
          simp [writeCell, ht]
        have hbw : (busWrite target v (.ram id r :: ds)).2 = .ram id r :: (busWrite target v ds).2 := by
          simp [busWrite, Device.write, ht]
        rw [hbw, busRead_ram, ih, hwc]
        by_cases ha : r.claims addr <;> simp [ha, nextCell]

theorem State.plain_iff {s : State} : s.plain = true ↔ s.quiet = true ∧ s.busWf = true := by
  simp [State.plain]

theorem State.peek_memWrite {s : State} (h : s.plain) (target addr : Addr) (v : Byte) :
    (memWrite target v s).peek addr = if s.reaches target addr then v else s.peek addr := by
  obtain ⟨hq, hw⟩ := State.plain_iff.mp h
  have key := busRead_busWrite hq hw target addr v
  simp only [State.peek, memRead, memWrite, State.setDevices_devices, key, State.reaches, Bool.and_eq_true,
    decide_eq_true_eq]
  split <;> rfl

/-! ## A state after stores -/

/-- From `s` the bus has seen exactly these stores: every byte reads as after them, and the device list
is theirs. -/
structure OnlyStored (s t : State) (stores : List (Addr × Byte)) : Prop where
  memory : MemoryAfter s t stores
  devices : t.devices = s.devicesAfter stores
  shape : t.devices.map Device.withoutCells = s.devices.map Device.withoutCells

/-- An unchanged device list has seen no store, on any bus. -/
theorem OnlyStored.none {s t : State} (h : t.devices = s.devices) : OnlyStored s t [] :=
  ⟨fun addr => by simp only [State.peek, memRead, h, State.peekAfter], h, by rw [h]⟩

/-- The same on a bus that is a described one still. -/
structure Stored (s t : State) (stores : List (Addr × Byte)) : Prop extends OnlyStored s t stores where
  plain : t.plain

theorem Stored.refl {s : State} (h : s.plain) : Stored s s [] := ⟨.none rfl, h⟩

/-- Only the device list counts. -/
theorem Stored.congr {s t u : State} {l : List (Addr × Byte)} (h : Stored s t l)
    (hd : u.devices = t.devices) : Stored s u l := by
  have hp (addr : Addr) : u.peek addr = t.peek addr := by simp only [State.peek, memRead, hd]
  refine ⟨⟨fun addr => (hp addr).trans (h.memory addr), hd.trans h.devices, by rw [hd]; exact h.shape⟩, ?_⟩
  have := h.plain
  simpa only [State.plain, State.quiet, State.busWf, hd] using this

/-- One store more. -/
theorem Stored.write {s t : State} {l : List (Addr × Byte)} (h : Stored s t l) (target : Addr) (v : Byte) :
    Stored s (memWrite target v t) ((target, v) :: l) := by
  obtain ⟨hq, hw⟩ := State.plain_iff.mp h.plain
  refine ⟨⟨fun addr => ?_, ?_, ?_⟩, State.plain_iff.mpr ⟨?_, ?_⟩⟩
  · rw [State.peek_memWrite h.plain, State.reaches_congr h.shape, h.memory addr]
    rfl
  · rw [State.devicesAfter, ← h.devices]
    rfl
  · exact (busWrite_withoutCells hq target v).trans h.shape
  · simpa [State.quiet, memWrite] using hq
  · exact busWrite_wf hw target v

theorem Stored.quiet {s t : State} {l : List (Addr × Byte)} (h : Stored s t l) : t.quiet :=
  (State.plain_iff.mp h.plain).1

/-- Reading on after stores. -/
theorem Stored.withRead {α : Type} {s t : State} {l : List (Addr × Byte)} (h : Stored s t l) (addr : Addr)
    (k : Byte → State → α) : withRead addr t k = k (s.peekAfter l addr) t := by
  rw [withRead_of_quiet h.quiet, h.memory addr]

end Sys2Proof.Machine
end

