-- ==== Sys2Proof/Laws/Ops.lean ====
section
/-! SUPPORT. One law per shared operation: what it can do on any bus, and what it does on a bus the spec
describes in full. -/

namespace Sys2Proof.Machine

/-! ## On any bus -/

/-- What every access keeps of a device list: which devices there are, and their canonical form. -/
structure BusKept (ds es : List Device) : Prop where
  handles : es.map Device.handle = ds.map Device.handle
  wf : ds.all Device.wf = true → es.all Device.wf = true

theorem BusKept.refl (ds : List Device) : BusKept ds ds := ⟨rfl, id⟩

theorem BusKept.trans {ds es fs : List Device} (h : BusKept ds es) (k : BusKept es fs) : BusKept ds fs :=
  ⟨k.handles.trans h.handles, fun w => k.wf (h.wf w)⟩

theorem busKept_read (addr : Addr) (ds : List Device) : BusKept ds (busRead addr ds).2 :=
  ⟨busRead_handles addr ds, fun h => by simpa using h⟩

theorem busKept_write (addr : Addr) (v : Byte) (ds : List Device) : BusKept ds (busWrite addr v ds).2 :=
  ⟨busWrite_handles addr v ds, fun h => busWrite_wf h addr v⟩

/-- A device list after reads only: no byte of a RAM changes either. -/
structure OnlyRead (ds es : List Device) : Prop where
  kept : BusKept ds es
  bytes : ramContents es = ramContents ds

theorem OnlyRead.refl (ds : List Device) : OnlyRead ds ds := ⟨.refl ds, rfl⟩

theorem OnlyRead.trans {ds es fs : List Device} (h : OnlyRead ds es) (k : OnlyRead es fs) : OnlyRead ds fs :=
  ⟨h.kept.trans k.kept, k.bytes.trans h.bytes⟩

/-- Reading a byte and going on: some byte, and a device list that was only read. -/
theorem withRead_cases (addr : Addr) (s : State) :
    ∃ (v : Byte) (ds : List Device), OnlyRead s.devices ds ∧
      ∀ {α : Type} (k : Byte → State → α), withRead addr s k = k v (s.setDevices ds) :=
  ⟨_, _, ⟨busKept_read addr s.devices, busRead_ramContents addr s.devices⟩, fun _ => rfl⟩

/-- Writing a byte changes the device list only. -/
theorem memWrite_cases (addr : Addr) (v : Byte) (s : State) :
    ∃ ds, BusKept s.devices ds ∧ memWrite addr v s = s.setDevices ds :=
  ⟨_, busKept_write addr v s.devices, rfl⟩

/-- A push moves SP down and changes the device list. -/
theorem push_cases (v : Byte) (s : State) :
    ∃ ds, BusKept s.devices ds ∧ push v s = (s.setDevices ds).setSp (s.sp - 1) := by
  obtain ⟨ds, hk, hw⟩ := memWrite_cases (stackAddr s.sp) v s
  exact ⟨ds, hk, by rw [push, hw]⟩

/-- Two pushes. -/
theorem push16_cases (w : Addr) (s : State) :
    ∃ ds, BusKept s.devices ds ∧ push16 w s = (s.setDevices ds).setSp (s.sp - 1 - 1) := by
  obtain ⟨ds, hk, hp⟩ := push_cases (hiByte w) s
  obtain ⟨es, hk', hp'⟩ := push_cases (loByte w) (push (hiByte w) s)
  rw [hp] at hk' hp'
  exact ⟨es, hk.trans hk', by rw [push16, hp, hp']; rfl⟩

/-- A pull moves SP up and reads. -/
theorem withPull_cases (s : State) :
    ∃ (v : Byte) (ds : List Device), OnlyRead s.devices ds ∧
      ∀ {α : Type} (k : Byte → State → α), withPull s k = k v ((s.setDevices ds).setSp (s.sp + 1)) := by
  obtain ⟨v, ds, hr, hk⟩ := withRead_cases (stackAddr (s.sp + 1)) (s.setSp (s.sp + 1))
  exact ⟨v, ds, hr, fun k => hk k⟩

/-- Two pulls. -/
theorem withPull16_cases (s : State) :
    ∃ (w : Addr) (ds : List Device), OnlyRead s.devices ds ∧
      ∀ {α : Type} (k : Addr → State → α),
        withPull16 s k = k w ((s.setDevices ds).setSp (s.sp + 1 + 1)) := by
  obtain ⟨lo, ds, hr, hk⟩ := withPull_cases s
  obtain ⟨hi, es, hr', hk'⟩ := withPull_cases ((s.setDevices ds).setSp (s.sp + 1))
  exact ⟨word16 hi lo, es, hr.trans hr', fun k => by rw [withPull16, hk, hk']; rfl⟩

/-- Reading a pointer. -/
theorem withPointer_cases (p : Addr) (s : State) :
    ∃ (w : Addr) (ds : List Device), OnlyRead s.devices ds ∧
      ∀ {α : Type} (k : Addr → State → α), withPointer p s k = k w (s.setDevices ds) := by
  obtain ⟨lo, ds, hr, hk⟩ := withRead_cases p s
  obtain ⟨hi, es, hr', hk'⟩ := withRead_cases (offAddr p 1) (s.setDevices ds)
  exact ⟨word16 hi lo, es, hr.trans hr', fun k => by rw [withPointer, hk, hk']; rfl⟩

/-- Reading a vector. -/
theorem withVector_cases (vec : Addr) (s : State) :
    ∃ (w : Addr) (ds : List Device), OnlyRead s.devices ds ∧
      ∀ {α : Type} (k : Addr → State → α), withVector vec s k = k w (s.setDevices ds) := by
  obtain ⟨lo, ds, hr, hk⟩ := withRead_cases vec s
  obtain ⟨hi, es, hr', hk'⟩ := withRead_cases (vec + 1) (s.setDevices ds)
  exact ⟨word16 hi lo, es, hr.trans hr', fun k => by rw [withVector, hk, hk']; rfl⟩

/-- Entering an interrupt: three pushes, I set and B clear, PC some word. -/
theorem interrupt_cases (vec : Addr) (s : State) :
    ∃ (w : Addr) (ds : List Device), BusKept s.devices ds ∧
      interrupt vec s =
        { s with devices := ds, sp := s.sp - 1 - 1 - 1, flags := { s.flags with i := true, b := false }, pc := w } := by
  obtain ⟨ds, h1, e1⟩ := push16_cases s.pc s
  obtain ⟨es, h2, e2⟩ := push_cases (packStatus { s.flags with i := true }) (setI true (push16 s.pc s))
  obtain ⟨w, fs, h3, e3⟩ := withVector_cases vec (interruptFrame s)
  rw [e1] at h2 e2
  have hf : interruptFrame s = setB false (push (packStatus (setI true (push16 s.pc s)).flags) (setI true (push16 s.pc s))) := rfl
  have hg : (setI true (push16 s.pc s)).flags = { s.flags with i := true } := by rw [e1]; rfl
  rw [hg, e1, e2] at hf
  rw [hf] at h3 e3
  exact ⟨w, fs, h1.trans (h2.trans h3.kept), by
    rw [interrupt, hf, e3]
    simp only [setB, setI, State.setPc, State.setFlags, State.setSp, State.setDevices]⟩

/-- The return: the flags and PC are those pulled, SP is three higher. -/
theorem returnFromInterrupt_cases (s : State) :
    ∃ (p : Byte) (w : Addr) (ds : List Device), OnlyRead s.devices ds ∧
      returnFromInterrupt s =
        { s with devices := ds, sp := s.sp + 1 + 1 + 1, flags := unpackStatus p, pc := w } := by
  obtain ⟨p, ds, h1, e1⟩ := withPull_cases s
  obtain ⟨w, es, h2, e2⟩ := withPull16_cases (((s.setDevices ds).setSp (s.sp + 1)).setFlags (unpackStatus p))
  exact ⟨p, w, es, h1.trans h2, by rw [returnFromInterrupt, e1, e2]; rfl⟩

/-! ## On a described bus -/

theorem State.peek_congr {s t : State} (h : t.devices = s.devices) (addr : Addr) : t.peek addr = s.peek addr := by
  simp only [State.peek, memRead, h]

theorem stackAddr_eq (sp : Byte) : stackAddr sp = BitVec.ofNat 16 (256 + sp.toNat) := by
  apply BitVec.eq_of_toNat_eq
  have := sp.isLt
  rw [stackAddr_toNat, BitVec.toNat_ofNat]
  omega

/-- The stack address of SP moved down. -/
theorem stackAddr_down (s : State) (k : Nat) (hk : k ≤ 255) :
    stackAddr (s.sp - BitVec.ofNat 8 k) = s.stackDown k := by
  rw [stackAddr_eq, State.stackDown, BitVec.toNat_sub, BitVec.toNat_ofNat]
  congr 2
  have := s.sp.isLt
  omega

/-- The stack address of SP moved up. -/
theorem stackAddr_up (s : State) (k : Nat) : stackAddr (s.sp + BitVec.ofNat 8 k) = s.stackUp k := by
  rw [stackAddr_eq, State.stackUp, BitVec.toNat_add, BitVec.toNat_ofNat]
  congr 2
  omega

theorem spDown_eq (s : State) (k : Nat) (hk : k ≤ 256) : s.spDown k = s.sp - BitVec.ofNat 8 k := by
  apply BitVec.eq_of_toNat_eq
  rw [State.spDown, BitVec.toNat_sub, BitVec.toNat_ofNat, BitVec.toNat_ofNat]
  have := s.sp.isLt
  omega

theorem spUp_eq (s : State) (k : Nat) : s.spUp k = s.sp + BitVec.ofNat 8 k := by
  apply BitVec.eq_of_toNat_eq
  rw [State.spUp, BitVec.toNat_add, BitVec.toNat_ofNat, BitVec.toNat_ofNat]
  omega

theorem pcPlus_eq (s : State) (k : Nat) : s.pcPlus k = s.pc + BitVec.ofNat 16 k := by
  apply BitVec.eq_of_toNat_eq
  rw [State.pcPlus, BitVec.toNat_add, BitVec.toNat_ofNat, BitVec.toNat_ofNat]
  omega

theorem word16_eq (hi lo : Byte) : word16 hi lo = BitVec.ofNat 16 (lo.toNat + 256 * hi.toNat) := by
  apply BitVec.eq_of_toNat_eq
  rw [word16_toNat, BitVec.toNat_ofNat]
  have := hi.isLt
  have := lo.isLt
  omega

theorem hiByte_eq (w : Addr) : hiByte w = BitVec.ofNat 8 (w.toNat / 256) := by
  apply BitVec.eq_of_toNat_eq
  rw [hiByte_toNat, BitVec.toNat_ofNat]
  have := w.isLt
  omega

theorem loByte_eq (w : Addr) : loByte w = BitVec.ofNat 8 (w.toNat % 256) := by
  apply BitVec.eq_of_toNat_eq
  rw [loByte_toNat, BitVec.toNat_ofNat]
  omega

/-- A push after stores is one store more; it moves SP and changes the device list. -/
theorem Stored.push {s t : State} {l : List (Addr × Byte)} (h : Stored s t l) (v : Byte) :
    ∃ ds : List Device, push v t = (t.setDevices ds).setSp (t.sp - 1) ∧
      Stored s (t.setDevices ds) ((stackAddr t.sp, v) :: l) :=
  ⟨_, rfl, (h.write (stackAddr t.sp) v).congr rfl⟩

/-- Two pushes after stores. -/
theorem Stored.push16 {s t : State} {l : List (Addr × Byte)} (h : Stored s t l) (w : Addr) :
    ∃ ds : List Device, push16 w t = (t.setDevices ds).setSp (t.sp - 1 - 1) ∧
      Stored s (t.setDevices ds) ((stackAddr (t.sp - 1), loByte w) :: (stackAddr t.sp, hiByte w) :: l) := by
  obtain ⟨ds, e1, h1⟩ := h.push (hiByte w)
  have h1' : Stored s ((t.setDevices ds).setSp (t.sp - 1)) ((stackAddr t.sp, hiByte w) :: l) := h1.congr rfl
  obtain ⟨es, e2, h2⟩ := h1'.push (loByte w)
  exact ⟨es, by rw [Machine.push16, e1, e2]; rfl, h2.congr rfl⟩

/-- A pull after stores. -/
theorem Stored.withPull {α : Type} {s t : State} {l : List (Addr × Byte)} (h : Stored s t l)
    (k : Byte → State → α) :
    withPull t k = k (s.peekAfter l (stackAddr (t.sp + 1))) (t.setSp (t.sp + 1)) :=
  (h.congr (u := t.setSp (t.sp + 1)) rfl).withRead _ k

/-- Two pulls after stores. -/
theorem Stored.withPull16 {α : Type} {s t : State} {l : List (Addr × Byte)} (h : Stored s t l)
    (k : Addr → State → α) :
    withPull16 t k =
      k (word16 (s.peekAfter l (stackAddr (t.sp + 1 + 1))) (s.peekAfter l (stackAddr (t.sp + 1))))
        (t.setSp (t.sp + 1 + 1)) := by
  unfold Machine.withPull16
  rw [h.withPull, (h.congr (u := t.setSp (t.sp + 1)) rfl).withPull]
  rfl

/-- Reading a pointer after stores. -/
theorem Stored.withPointer {α : Type} {s t : State} {l : List (Addr × Byte)} (h : Stored s t l) (p : Addr)
    (k : Addr → State → α) :
    withPointer p t k = k (word16 (s.peekAfter l (offAddr p 1)) (s.peekAfter l p)) t := by
  unfold Machine.withPointer
  rw [h.withRead, h.withRead]

/-- Reading a vector after stores. -/
theorem Stored.withVector {α : Type} {s t : State} {l : List (Addr × Byte)} (h : Stored s t l) (vec : Addr)
    (k : Addr → State → α) :
    withVector vec t k = k (word16 (s.peekAfter l (vec + 1)) (s.peekAfter l vec)) t := by
  unfold Machine.withVector
  rw [h.withRead, h.withRead]

/-- The stores of an interrupt entry that saves the word `pc` and the flags `f`, the latest first. -/
def entryStores (sp : Byte) (pc : Addr) (f : Flags) : List (Addr × Byte) :=
  [(stackAddr (sp - 1 - 1), packStatus { f with i := true }), (stackAddr (sp - 1), loByte pc),
    (stackAddr sp, hiByte pc)]

/-- The frame of an interrupt entry: three stores, SP three lower, I set and B clear. -/
theorem Stored.interruptFrame {s t : State} {l : List (Addr × Byte)} (h : Stored s t l) :
    ∃ ds : List Device,
      interruptFrame t =
        { t with devices := ds, sp := t.sp - 1 - 1 - 1, flags := { t.flags with i := true, b := false } } ∧
      Stored s (t.setDevices ds) (entryStores t.sp t.pc t.flags ++ l) := by
  obtain ⟨ds, e2, h2⟩ := h.push16 t.pc
  have h3 : Stored s (setI true ((t.setDevices ds).setSp (t.sp - 1 - 1))) _ := h2.congr rfl
  obtain ⟨es, e4, h4⟩ := h3.push (packStatus { t.flags with i := true })
  have hfl : (setI true ((t.setDevices ds).setSp (t.sp - 1 - 1))).flags = { t.flags with i := true } := rfl
  exact ⟨es, by rw [Machine.interruptFrame, e2, hfl, e4]; rfl, h4.congr rfl⟩

/-- Entering an interrupt: the frame, and PC the word at the vector after its stores. -/
theorem Stored.interrupt {s t : State} {l : List (Addr × Byte)} (h : Stored s t l) (vec : Addr) :
    ∃ ds : List Device,
      interrupt vec t =
        { t with
          devices := ds, sp := t.sp - 1 - 1 - 1, flags := { t.flags with i := true, b := false }
          pc := word16 (s.peekAfter (entryStores t.sp t.pc t.flags ++ l) (vec + 1))
            (s.peekAfter (entryStores t.sp t.pc t.flags ++ l) vec) } ∧
      Stored s (t.setDevices ds) (entryStores t.sp t.pc t.flags ++ l) := by
  obtain ⟨ds, hf, hst⟩ := h.interruptFrame
  refine ⟨ds, ?_, hst⟩
  have hst' : Stored s (Machine.interruptFrame t) (entryStores t.sp t.pc t.flags ++ l) := by
    rw [hf]; exact hst.congr rfl
  rw [Machine.interrupt, hst'.withVector, hf]
  rfl

/-- Returning: the flags from the first byte, PC from the next two. -/
theorem Stored.returnFromInterrupt {s t : State} {l : List (Addr × Byte)} (h : Stored s t l) :
    returnFromInterrupt t =
      { t with
        sp := t.sp + 1 + 1 + 1, flags := unpackStatus (s.peekAfter l (stackAddr (t.sp + 1)))
        pc := word16 (s.peekAfter l (stackAddr (t.sp + 1 + 1 + 1))) (s.peekAfter l (stackAddr (t.sp + 1 + 1))) } := by
  rw [Machine.returnFromInterrupt, h.withPull]
  have h1 : Stored s ((t.setSp (t.sp + 1)).setFlags (unpackStatus (s.peekAfter l (stackAddr (t.sp + 1))))) l :=
    h.congr rfl
  rw [h1.withPull16]
  rfl

end Sys2Proof.Machine
end

