-- ==== Sys2Proof/Laws/Exec.lean ====
section
/-! SUPPORT. The laws of a dispatch: every instruction is the one frame `runInstr` around its mnemonic's
operation, and what the resolver, `Load` and `Store` do in it. -/

namespace Sys2Proof.Machine

/-- The operation of a mnemonic. -/
def opRun : Op → State → OpResult
  | .adc => opAdc
  | .and => opAnd
  | .asl => opAsl
  | .bcc => opBcc
  | .bcs => opBcs
  | .beq => opBeq
  | .bit => opBit
  | .bmi => opBmi
  | .bne => opBne
  | .bpl => opBpl
  | .brk => opBrk
  | .bvc => opBvc
  | .bvs => opBvs
  | .clc => opClc
  | .cld => opCld
  | .cli => opCli
  | .clv => opClv
  | .cmp => opCmp
  | .cpx => opCpx
  | .cpy => opCpy
  | .dec => opDec
  | .dex => opDex
  | .dey => opDey
  | .eor => opEor
  | .inc => opInc
  | .inx => opInx
  | .iny => opIny
  | .jmp => opJmp
  | .jsr => opJsr
  | .lda => opLda
  | .ldx => opLdx
  | .ldy => opLdy
  | .lsr => opLsr
  | .nop => opNop
  | .ora => opOra
  | .pha => opPha
  | .php => opPhp
  | .pla => opPla
  | .plp => opPlp
  | .rol => opRol
  | .ror => opRor
  | .rti => opRti
  | .rts => opRts
  | .sbc => opSbc
  | .sec => opSec
  | .sed => opSed
  | .sei => opSei
  | .sta => opSta
  | .stx => opStx
  | .sty => opSty
  | .tax => opTax
  | .tay => opTay
  | .tsx => opTsx
  | .txa => opTxa
  | .txs => opTxs
  | .tya => opTya

/-- Every arm of `exec` is the frame around its mnemonic's operation, with the ticks of its class. -/
theorem exec_eq_runInstr (i : Instr) (s : State) :
    exec i s = runInstr (i.op.ticks i.mode) i.operand (opRun i.op) s := by
  cases i <;> rfl

/-! ## On any bus -/

/-- The resolver only reads; it moves PC past the operand bytes and sets EA and the tag. -/
theorem resolve_cases (o : Operand) (s : State) :
    ∃ (cross : Bool) (ea : Addr) (ds : List Device), OnlyRead s.devices ds ∧
      resolve o s =
        (cross, { s with pc := s.pc + BitVec.ofNat 16 (o.mode.length - 1), ea := ea, tag := o.tag, devices := ds }) := by
  have hz : s.pc + BitVec.ofNat 16 0 = s.pc := by simp
  cases o with
  | imp => exact ⟨_, _, _, .refl _, by simp only [resolve, Operand.mode, Mode.length, hz]; rfl⟩
  | acc => exact ⟨_, _, _, .refl _, by simp only [resolve, Operand.mode, Mode.length, hz]; rfl⟩
  | imm v => exact ⟨_, _, _, .refl _, rfl⟩
  | zp p => exact ⟨_, _, _, .refl _, rfl⟩
  | zpx p => exact ⟨_, _, _, .refl _, rfl⟩
  | zpy p => exact ⟨_, _, _, .refl _, rfl⟩
  | abs w => exact ⟨_, _, _, .refl _, rfl⟩
  | abx w => exact ⟨_, _, _, .refl _, rfl⟩
  | aby w => exact ⟨_, _, _, .refl _, rfl⟩
  | rel d => exact ⟨_, _, _, .refl _, rfl⟩
  | ind w =>
    obtain ⟨p, ds, hr, hk⟩ := withPointer_cases w (advance 2 s)
    exact ⟨_, _, ds, hr, by rw [resolve, hk]; rfl⟩
  | izx p =>
    obtain ⟨q, ds, hr, hk⟩ := withPointer_cases (zeroPage (p + s.x)) (advance 1 s)
    exact ⟨_, _, ds, hr, by rw [resolve, hk]; rfl⟩
  | izy p =>
    obtain ⟨q, ds, hr, hk⟩ := withPointer_cases (zeroPage p) (advance 1 s)
    exact ⟨_, _, ds, hr, by rw [resolve, hk]; rfl⟩

/-- `Load(0)` with any tag but Implied goes on with some byte. -/
theorem withLoad_cases {s : State} (h : s.tag ≠ .implied) :
    ∃ (v : Byte) (ds : List Device), OnlyRead s.devices ds ∧
      ∀ k : Byte → State → OpResult, withLoad 0 s k = k v (s.setDevices ds) := by
  cases ht : s.tag with
  | implied => exact absurd ht h
  | accumulator => exact ⟨s.a, s.devices, .refl _, fun k => by simp only [withLoad, ht]; rfl⟩
  | immediate v => exact ⟨v, s.devices, .refl _, fun k => by simp only [withLoad, ht]; rfl⟩
  | address =>
    obtain ⟨v, ds, hr, hk⟩ := withRead_cases (offAddr s.ea 0) s
    exact ⟨v, ds, hr, fun k => by simp only [withLoad, ht, hk]⟩

/-- `Store(0, v)` with any tag but Implied writes A in accumulator mode and the Bus otherwise. -/
theorem withStore_cases {s : State} (h : s.tag ≠ .implied) (v : Byte) :
    ∃ ds : List Device, BusKept s.devices ds ∧ (s.tag = .accumulator → ds = s.devices) ∧
      ∀ k : State → OpResult,
        withStore 0 v s k = k ((s.setDevices ds).setA (if s.tag = .accumulator then v else s.a)) := by
  cases ht : s.tag with
  | implied => exact absurd ht h
  | accumulator => exact ⟨s.devices, .refl _, fun _ => rfl, fun k => by simp only [withStore, ht]; rfl⟩
  | immediate w =>
    obtain ⟨ds, hk, hw⟩ := memWrite_cases (offAddr s.ea 0) v s
    exact ⟨ds, hk, (fun e => nomatch e), fun k => by simp only [withStore, ht, hw]; rfl⟩
  | address =>
    obtain ⟨ds, hk, hw⟩ := memWrite_cases (offAddr s.ea 0) v s
    exact ⟨ds, hk, (fun e => nomatch e), fun k => by simp only [withStore, ht, hw]; rfl⟩

/-! ## On a described bus -/

/-- The state an operation starts in: PC past the instruction, the base budget, EA and the tag. -/
def State.resolved (s : State) (o : Operand) (base : Nat) : State :=
  { s with pc := s.pcPlus o.mode.length, budget := base, ea := o.target s, tag := o.tag }

theorem zeroPage_add_toNat (p k : Byte) : (zeroPage (p + k)).toNat = (p.toNat + k.toNat) % 256 := by
  rw [zeroPage_toNat, BitVec.toNat_add]

theorem add_setWidth_toNat (w : Addr) (k : Byte) : (w + k.setWidth 16).toNat = (w.toNat + k.toNat) % 65536 := by
  have := k.isLt
  rw [BitVec.toNat_add, BitVec.toNat_setWidth]
  omega

/-- The pointer read at `p`, as a number. -/
theorem pointer_toNat (s : State) (p : Addr) :
    (word16 (s.peek (offAddr p 1)) (s.peek p)).toNat = s.pointerNat p.toNat := by
  have h1 : BitVec.ofNat 16 p.toNat = p := by simp
  have h2 : BitVec.ofNat 16 (samePageNext p.toNat) = offAddr p 1 := by
    rw [← offAddr_one_toNat]; simp
  rw [word16_toNat, State.pointerNat, State.peekNat, State.peekNat, h1, h2]
  omega

/-- Operands of the absolute and relative kind end where they say. -/
theorem target_eq {s : State} {o : Operand} {w : Addr} (h : w.toNat = o.address s) : o.target s = w := by
  apply BitVec.eq_of_toNat_eq
  rw [Operand.target, ← h]
  simp

theorem atIndexed_eq (base : Addr) (k : Byte) (s : State) :
    atIndexed base k s =
      (decide ((base.toNat + k.toNat) % 65536 / 256 ≠ base.toNat / 256),
        (s.setTag .address).setEa (base + k.setWidth 16)) := by
  simp only [atIndexed, pageDiffers_eq, add_setWidth_toNat]

theorem advance_advance (j k : Nat) (s : State) : advance k (advance j s) = s.setPc (s.pcPlus (j + k)) := by
  rw [pcPlus_eq, BitVec.ofNat_add, ← BitVec.add_assoc]
  rfl

/-- The modes that read a pointer from memory: the others make no bus access in the resolver
(30_encoding R105 to R107). -/
def readsPointer (o : Operand) : Bool := [Mode.ind, .izx, .izy].contains o.mode

/-- The resolver in a dispatch, on a described bus, or on any bus where it reads no pointer: the
effective address, the tag and the page cross are those the spec gives in numbers. -/
theorem resolve_eq {s : State} {o : Operand} (h : s.plain = true ∨ readsPointer o = false) (base : Nat) :
    resolve o ((advance 1 s).setBudget base) = (o.crosses s, s.resolved o base) := by
  have hb (k : Nat) (hp : s.plain = true) : Stored s (advance k ((advance 1 s).setBudget base)) [] :=
    (Stored.refl hp).congr rfl
  have hp1 : s.pc + BitVec.ofNat 16 1 = s.pcPlus 1 := (pcPlus_eq s 1).symm
  have hp2 : s.pc + BitVec.ofNat 16 1 + BitVec.ofNat 16 1 = s.pcPlus 2 := by
    rw [pcPlus_eq, BitVec.add_assoc, ← BitVec.ofNat_add]
  have hp3 : s.pc + BitVec.ofNat 16 1 + BitVec.ofNat 16 2 = s.pcPlus 3 := by
    rw [pcPlus_eq, BitVec.add_assoc, ← BitVec.ofNat_add]
  have hea : BitVec.ofNat 16 s.ea.toNat = s.ea := by simp
  have hop : BitVec.ofNat 16 ((s.pc.toNat + 1) % 65536) = s.pcPlus 1 := by
    apply BitVec.eq_of_toNat_eq; simp [State.pcPlus]
  have hop' : BitVec.ofNat 16 ((s.pc.toNat + 1) % 65536) = s.pc + 1#16 := hop.trans hp1.symm
  cases o with
  | imp => simp [resolve, Operand.crosses, Operand.base, State.resolved, Operand.target, Operand.address,
      Operand.tag, Operand.mode, Mode.length, State.setTag, State.setBudget, advance, State.setPc, hp1, hea]
  | acc => simp [resolve, Operand.crosses, Operand.base, State.resolved, Operand.target, Operand.address,
      Operand.tag, Operand.mode, Mode.length, State.setTag, State.setBudget, advance, State.setPc, hp1, hea]
  | imm v => simp [resolve, atOperandByte, Operand.crosses, Operand.base, State.resolved, Operand.target,
      Operand.address, Operand.tag, Operand.mode, Mode.length, State.setTag, State.setBudget, State.setEa,
      advance, State.setPc, hp2, hop']
  | rel v => simp [resolve, atOperandByte, Operand.crosses, Operand.base, State.resolved, Operand.target,
      Operand.address, Operand.tag, Operand.mode, Mode.length, State.setTag, State.setBudget, State.setEa,
      advance, State.setPc, hp2, hop']
  | zp p =>
    have ht : (Operand.zp p).target s = zeroPage p := target_eq (zeroPage_toNat p)
    simp only [resolve, atAddress, State.resolved, ht]
    simp [Operand.crosses, Operand.base, Operand.tag, Operand.mode, Mode.length, State.setTag,
      State.setBudget, State.setEa, advance, State.setPc, hp2]
  | zpx p =>
    have ht : (Operand.zpx p).target s = zeroPage (p + s.x) := target_eq (zeroPage_add_toNat p s.x)
    simp only [resolve, atAddress, State.resolved, ht]
    simp [Operand.crosses, Operand.base, Operand.tag, Operand.mode, Mode.length, State.setTag,
      State.setBudget, State.setEa, advance, State.setPc, hp2]
  | zpy p =>
    have ht : (Operand.zpy p).target s = zeroPage (p + s.y) := target_eq (zeroPage_add_toNat p s.y)
    simp only [resolve, atAddress, State.resolved, ht]
    simp [Operand.crosses, Operand.base, Operand.tag, Operand.mode, Mode.length, State.setTag,
      State.setBudget, State.setEa, advance, State.setPc, hp2]
  | abs w =>
    have ht : (Operand.abs w).target s = w := target_eq rfl
    simp only [resolve, atAddress, State.resolved, ht]
    simp [Operand.crosses, Operand.base, Operand.tag, Operand.mode, Mode.length, State.setTag,
      State.setBudget, State.setEa, advance, State.setPc, hp3]
  | abx w =>
    have ht : (Operand.abx w).target s = w + s.x.setWidth 16 := target_eq (add_setWidth_toNat w s.x)
    simp only [resolve, atIndexed_eq, State.resolved, ht]
    simp [Operand.crosses, Operand.base, Operand.tag, Operand.mode, Mode.length, State.setTag,
      State.setBudget, State.setEa, advance, State.setPc, hp3]
    exact decide_not
  | aby w =>
    have ht : (Operand.aby w).target s = w + s.y.setWidth 16 := target_eq (add_setWidth_toNat w s.y)
    simp only [resolve, atIndexed_eq, State.resolved, ht]
    simp [Operand.crosses, Operand.base, Operand.tag, Operand.mode, Mode.length, State.setTag,
      State.setBudget, State.setEa, advance, State.setPc, hp3]
    exact decide_not
  | ind w =>
    have ht : (Operand.ind w).target s = word16 (s.peek (offAddr w 1)) (s.peek w) := target_eq (pointer_toNat s w)
    simp only [resolve, (hb 2 (h.resolve_right (by simp [readsPointer, Operand.mode]))).withPointer, State.peekAfter, atAddress, State.resolved, ht]
    simp [Operand.crosses, Operand.base, Operand.tag, Operand.mode, Mode.length, State.setTag,
      State.setBudget, State.setEa, advance, State.setPc, hp3]
  | izx p =>
    have ht : (Operand.izx p).target s =
        word16 (s.peek (offAddr (zeroPage (p + s.x)) 1)) (s.peek (zeroPage (p + s.x))) :=
      target_eq (by rw [pointer_toNat, zeroPage_add_toNat]; rfl)
    simp only [resolve, (hb 1 (h.resolve_right (by simp [readsPointer, Operand.mode]))).withPointer, State.peekAfter, atAddress, State.resolved, ht]
    simp [Operand.crosses, Operand.base, Operand.tag, Operand.mode, Mode.length, State.setTag,
      State.setBudget, State.setEa, advance, State.setPc, hp2]
  | izy p =>
    have hptr := pointer_toNat s (zeroPage p)
    rw [zeroPage_toNat] at hptr
    have ht : (Operand.izy p).target s =
        word16 (s.peek (offAddr (zeroPage p) 1)) (s.peek (zeroPage p)) + s.y.setWidth 16 :=
      target_eq (by rw [add_setWidth_toNat, hptr]; rfl)
    simp only [resolve, (hb 1 (h.resolve_right (by simp [readsPointer, Operand.mode]))).withPointer, State.peekAfter, atIndexed_eq, State.resolved, ht, hptr]
    simp [Operand.crosses, Operand.base, Operand.tag, Operand.mode, Mode.length, State.setTag,
      State.setBudget, State.setEa, advance, State.setPc, hp2]

theorem resolved_stored {s : State} (h : s.plain) (base : Nat) (o : Operand) :
    Stored s (s.resolved o base) [] := (Stored.refl h).congr rfl

/-- `Load(0)` in a dispatch goes on with the operand byte. -/
theorem withLoad_resolved {s : State} (h : s.plain) (base : Nat) {o : Operand} (ho : o.mode ≠ .imp)
    (k : Byte → State → OpResult) :
    withLoad 0 (s.resolved o base) k = k (o.value s) (s.resolved o base) := by
  have hr := fun a (k : Byte → State → OpResult) => (resolved_stored h base o).withRead a k
  cases o with
  | imp => exact absurd rfl ho
  | acc => rfl
  | imm v => rfl
  | rel d => rfl
  | _ =>
    refine (hr _ k).trans ?_
    rw [offAddr_zero]
    rfl

/-- `Store(0, v)` in a dispatch, by a state that has stored nothing. -/
theorem withStore_resolved {s : State} (h : s.plain) (base : Nat) {o : Operand} (ho : o.mode ≠ .imp)
    (v : Byte) :
    ∃ ds : List Device, Stored s (((s.resolved o base).setDevices ds)) (o.stores s v) ∧
      ∀ k : State → OpResult, withStore 0 v (s.resolved o base) k =
        k (((s.resolved o base).setDevices ds).setA (if o.mode = .acc then v else s.a)) := by
  have hw := (resolved_stored h base o).write (o.target s) v
  cases o with
  | imp => exact absurd rfl ho
  | acc => exact ⟨s.devices, resolved_stored h base .acc, fun k => rfl⟩
  | _ =>
    refine ⟨_, hw.congr rfl, fun k => ?_⟩
    simp only [withStore, State.resolved, Operand.tag, offAddr_zero]
    rfl

/-- A dispatch, given what the operation does from the resolved state. -/
theorem runInstr_eq {s : State} {o : Operand} (h : s.plain = true ∨ readsPointer o = false) {base : Nat}
    {op : State → OpResult}
    {u : State} {e : Bool} (hop : op (s.resolved o base) = .next (u, e)) :
    runInstr base o op s =
      .next (if o.crosses s && e then u else u.setBudget (u.budget - 1)) := by
  simp only [runInstr, resolve_eq h, hop]

end Sys2Proof.Machine
end

