-- ==== Sys2Proof/Laws/Effect.lean ====
section
/-! SUPPORT. From an operation to the effect of its instruction: the frame of a dispatch once for all
instructions, and the flag and status helpers in numbers. -/

namespace Sys2Proof.Machine

theorem Byte.bit_seven (v : Byte) : v.getLsbD 7 = decide (128 ≤ v.toNat) := by
  revert v; decide

theorem Byte.eq_zero (v : Byte) : decide (v = 0) = decide (v.toNat = 0) := by
  revert v; decide

/-- `SetZN` in numbers. -/
theorem Flags.withZN_eq_ofResult (v : Byte) (f : Flags) : f.withZN v = f.ofResult v := by
  simp only [Flags.withZN, Flags.ofResult, Byte.bit_seven, Byte.eq_zero]

/-- The packed status in numbers. -/
theorem packStatus_eq (f : Flags) : packStatus f = statusByte f := by
  obtain ⟨n, v, b, d, i, z, c⟩ := f
  revert n v b d i z c
  decide

/-- The unpacked status by division. -/
theorem unpackStatus_eq (p : Byte) : unpackStatus p = statusFlags p := by
  revert p; decide

theorem sameHostSide_resolved (s : State) (o : Operand) (base : Nat) : SameHostSide s (s.resolved o base) :=
  ⟨rfl, rfl, rfl, rfl, rfl, rfl⟩

/-- The frame of a dispatch, once for every instruction: what its operation does from the resolved state
is its effect, with the cycle of R132 taken off or left. -/
theorem does_of_run {s : State} {i : Instr} (h : s.plain = true ∨ readsPointer i.operand = false)
    {u : State} {eligible : Bool} {e : Effect}
    (hop : opRun i.op (s.resolved i.operand (i.op.ticks i.mode)) = .next (u, eligible))
    (hel : i.operand.crosses s = true → eligible = i.op.isRead)
    (hst : OnlyStored s u e.stores) (hh : SameHostSide s u)
    (ha : u.a = e.a) (hx : u.x = e.x) (hy : u.y = e.y) (hsp : u.sp = e.sp) (hpc : u.pc = e.pc)
    (hf : u.flags = e.flags) (hb : u.budget + i.crossTicks s - 1 = e.budget)
    (hea : u.ea = e.ea) (htag : u.tag = e.tag) : i.Does s e := by
  refine ⟨_, by rw [exec_eq_runInstr, runInstr_eq h hop], ?_⟩
  have hbud : (if i.operand.crosses s && eligible then u else u.setBudget (u.budget - 1)).budget = e.budget := by
    rw [← hb, Instr.crossTicks]
    by_cases hc : i.operand.crosses s
    · rw [hel hc, hc]
      cases i.op.isRead <;> simp
    · simp [hc]
  refine ⟨?_, ?_, ?_, ?_, ?_, ?_, hbud, ?_, ?_, ?_, ?_, ?_, ?_⟩
  all_goals (split <;> first | assumption | exact hst.memory | exact hst.devices | exact hst.shape)

/-- An instruction with a byte operand is not in Implied mode. -/
theorem operand_mode_ne_imp {i : Instr}
    (h : i.op.isRead = true ∨ i.op.isStore = true ∨ i.op.isModify = true ∨ i.op.isBranch = true) :
    i.operand.mode ≠ .imp := by
  cases i <;> first
    | (simp [Instr.operand, Operand.mode]; done)
    | simp [Instr.op, Op.isRead, Op.isStore, Op.isModify, Op.isBranch] at h

/-- Only operands with an un-indexed base cross a page. -/
theorem crosses_of_base_none {s : State} {o : Operand} (h : o.base s = none) : o.crosses s = false := by
  simp only [Operand.crosses, h]

end Sys2Proof.Machine
end

