-- ==== Sys2Proof/Laws/Encoding.lean ====
section
/-! SUPPORT. The opcode table read from the instruction's side. -/

namespace Sys2Proof

/-- The form of the table row an instruction belongs to. -/
def Instr.form : Instr → Form
  | .brk => .plain .brk
  | .oraIzx _ => .byte .oraIzx
  | .oraZp _ => .byte .oraZp
  | .aslZp _ => .byte .aslZp
  | .php => .plain .php
  | .oraImm _ => .byte .oraImm
  | .aslAcc => .plain .aslAcc
  | .oraAbs _ => .word .oraAbs
  | .aslAbs _ => .word .aslAbs
  | .bpl _ => .byte .bpl
  | .oraIzy _ => .byte .oraIzy
  | .oraZpx _ => .byte .oraZpx
  | .aslZpx _ => .byte .aslZpx
  | .clc => .plain .clc
  | .oraAby _ => .word .oraAby
  | .oraAbx _ => .word .oraAbx
  | .aslAbx _ => .word .aslAbx
  | .jsr _ => .word .jsr
  | .andIzx _ => .byte .andIzx
  | .bitZp _ => .byte .bitZp
  | .andZp _ => .byte .andZp
  | .rolZp _ => .byte .rolZp
  | .plp => .plain .plp
  | .andImm _ => .byte .andImm
  | .rolAcc => .plain .rolAcc
  | .bitAbs _ => .word .bitAbs
  | .andAbs _ => .word .andAbs
  | .rolAbs _ => .word .rolAbs
  | .bmi _ => .byte .bmi
  | .andIzy _ => .byte .andIzy
  | .andZpx _ => .byte .andZpx
  | .rolZpx _ => .byte .rolZpx
  | .sec => .plain .sec
  | .andAby _ => .word .andAby
  | .andAbx _ => .word .andAbx
  | .rolAbx _ => .word .rolAbx
  | .rti => .plain .rti
  | .eorIzx _ => .byte .eorIzx
  | .eorZp _ => .byte .eorZp
  | .lsrZp _ => .byte .lsrZp
  | .pha => .plain .pha
  | .eorImm _ => .byte .eorImm
  | .lsrAcc => .plain .lsrAcc
  | .jmpAbs _ => .word .jmpAbs
  | .eorAbs _ => .word .eorAbs
  | .lsrAbs _ => .word .lsrAbs
  | .bvc _ => .byte .bvc
  | .eorIzy _ => .byte .eorIzy
  | .eorZpx _ => .byte .eorZpx
  | .lsrZpx _ => .byte .lsrZpx
  | .cli => .plain .cli
  | .eorAby _ => .word .eorAby
  | .eorAbx _ => .word .eorAbx
  | .lsrAbx _ => .word .lsrAbx
  | .rts => .plain .rts
  | .adcIzx _ => .byte .adcIzx
  | .adcZp _ => .byte .adcZp
  | .rorZp _ => .byte .rorZp
  | .pla => .plain .pla
  | .adcImm _ => .byte .adcImm
  | .rorAcc => .plain .rorAcc
  | .jmpInd _ => .word .jmpInd
  | .adcAbs _ => .word .adcAbs
  | .rorAbs _ => .word .rorAbs
  | .bvs _ => .byte .bvs
  | .adcIzy _ => .byte .adcIzy
  | .adcZpx _ => .byte .adcZpx
  | .rorZpx _ => .byte .rorZpx
  | .sei => .plain .sei
  | .adcAby _ => .word .adcAby
  | .adcAbx _ => .word .adcAbx
  | .rorAbx _ => .word .rorAbx
  | .staIzx _ => .byte .staIzx
  | .styZp _ => .byte .styZp
  | .staZp _ => .byte .staZp
  | .stxZp _ => .byte .stxZp
  | .dey => .plain .dey
  | .txa => .plain .txa
  | .styAbs _ => .word .styAbs
  | .staAbs _ => .word .staAbs
  | .stxAbs _ => .word .stxAbs
  | .bcc _ => .byte .bcc
  | .staIzy _ => .byte .staIzy
  | .styZpx _ => .byte .styZpx
  | .staZpx _ => .byte .staZpx
  | .stxZpy _ => .byte .stxZpy
  | .tya => .plain .tya
  | .staAby _ => .word .staAby
  | .txs => .plain .txs
  | .staAbx _ => .word .staAbx
  | .ldyImm _ => .byte .ldyImm
  | .ldaIzx _ => .byte .ldaIzx
  | .ldxImm _ => .byte .ldxImm
  | .ldyZp _ => .byte .ldyZp
  | .ldaZp _ => .byte .ldaZp
  | .ldxZp _ => .byte .ldxZp
  | .tay => .plain .tay
  | .ldaImm _ => .byte .ldaImm
  | .tax => .plain .tax
  | .ldyAbs _ => .word .ldyAbs
  | .ldaAbs _ => .word .ldaAbs
  | .ldxAbs _ => .word .ldxAbs
  | .bcs _ => .byte .bcs
  | .ldaIzy _ => .byte .ldaIzy
  | .ldyZpx _ => .byte .ldyZpx
  | .ldaZpx _ => .byte .ldaZpx
  | .ldxZpy _ => .byte .ldxZpy
  | .clv => .plain .clv
  | .ldaAby _ => .word .ldaAby
  | .tsx => .plain .tsx
  | .ldyAbx _ => .word .ldyAbx
  | .ldaAbx _ => .word .ldaAbx
  | .ldxAby _ => .word .ldxAby
  | .cpyImm _ => .byte .cpyImm
  | .cmpIzx _ => .byte .cmpIzx
  | .cpyZp _ => .byte .cpyZp
  | .cmpZp _ => .byte .cmpZp
  | .decZp _ => .byte .decZp
  | .iny => .plain .iny
  | .cmpImm _ => .byte .cmpImm
  | .dex => .plain .dex
  | .cpyAbs _ => .word .cpyAbs
  | .cmpAbs _ => .word .cmpAbs
  | .decAbs _ => .word .decAbs
  | .bne _ => .byte .bne
  | .cmpIzy _ => .byte .cmpIzy
  | .cmpZpx _ => .byte .cmpZpx
  | .decZpx _ => .byte .decZpx
  | .cld => .plain .cld
  | .cmpAby _ => .word .cmpAby
  | .cmpAbx _ => .word .cmpAbx
  | .decAbx _ => .word .decAbx
  | .cpxImm _ => .byte .cpxImm
  | .sbcIzx _ => .byte .sbcIzx
  | .cpxZp _ => .byte .cpxZp
  | .sbcZp _ => .byte .sbcZp
  | .incZp _ => .byte .incZp
  | .inx => .plain .inx
  | .sbcImm _ => .byte .sbcImm
  | .nop => .plain .nop
  | .cpxAbs _ => .word .cpxAbs
  | .sbcAbs _ => .word .sbcAbs
  | .incAbs _ => .word .incAbs
  | .beq _ => .byte .beq
  | .sbcIzy _ => .byte .sbcIzy
  | .sbcZpx _ => .byte .sbcZpx
  | .incZpx _ => .byte .incZpx
  | .sed => .plain .sed
  | .sbcAby _ => .word .sbcAby
  | .sbcAbx _ => .word .sbcAbx
  | .incAbx _ => .word .incAbx

end Sys2Proof
end

