-- ==== Sys2Proof/Laws/Engine.lean ====
section
/-! SUPPORT. The laws of the engine: the fetch, the CPU's tick, one `Bus.tick()`, and the
bring-up of a constructed machine. -/

namespace Sys2Proof.Machine

/-! ## Fetch -/

/-- The fetch of `n` bytes on a described bus. -/
theorem readBytes_of_quiet {s : State} (h : s.quiet) (n : Nat) (addr : Addr) :
    readBytes addr n s = ((List.range n).map fun k => s.peek (addr + BitVec.ofNat 16 k), s) := by
  induction n generalizing addr with
  | zero => rfl
  | succ n ih =>
    simp only [readBytes, memRead_of_quiet h, ih, List.range_succ_eq_map, List.map_cons, List.map_map]
    have h0 : addr + BitVec.ofNat 16 0 = addr := by simp
    simp only [h0, Prod.mk.injEq, List.cons.injEq, true_and, and_true]
    refine List.map_congr_left fun k _ => ?_
    show s.peek (addr + 1 + BitVec.ofNat 16 k) = s.peek (addr + BitVec.ofNat 16 (k + 1))
    rw [Nat.add_comm k 1, BitVec.ofNat_add, ← BitVec.add_assoc]
    rfl

/-- Only the bytes an instruction has are decoded: bytes after them are left over. -/
theorem Form.decode_append {opcode : Byte} {f : Form} {bs : List Byte} (h : bs.length = f.operandCount)
    (more : List Byte) {i : Instr} {rest : List Byte} (hd : f.decode opcode (bs ++ more) = .ok i rest) :
    f.decode opcode bs = .ok i [] := by
  match f, bs, h with
  | .plain j, [], _ => simp only [Form.decode, Decoded.ok.injEq] at hd ⊢; exact ⟨hd.1, trivial⟩
  | .byte g, [b], _ => simp only [Form.decode, List.cons_append, Decoded.ok.injEq] at hd ⊢; exact ⟨hd.1, trivial⟩
  | .word g, [b, c], _ => simp only [Form.decode, List.cons_append, Decoded.ok.injEq] at hd ⊢; exact ⟨hd.1, trivial⟩

/-- A form with all its operand bytes decodes. -/
theorem Form.decode_ok {opcode : Byte} {f : Form} {bs : List Byte} (h : bs.length = f.operandCount) :
    ∃ i, f.decode opcode bs = .ok i [] := by
  match f, bs, h with
  | .plain j, [], _ => exact ⟨_, rfl⟩
  | .byte g, [b], _ => exact ⟨_, rfl⟩
  | .word g, [b, c], _ => exact ⟨_, rfl⟩

theorem readBytes_length (addr : Addr) (n : Nat) (s : State) : (readBytes addr n s).1.length = n := by
  induction n generalizing addr s with
  | zero => rfl
  | succ n ih => simp only [readBytes, List.length_cons, ih]

/-- The fetch only reads. -/
theorem readBytes_cases (addr : Addr) (n : Nat) (s : State) :
    ∃ ds, OnlyRead s.devices ds ∧ (readBytes addr n s).2 = s.setDevices ds := by
  induction n generalizing addr s with
  | zero => exact ⟨s.devices, .refl _, rfl⟩
  | succ n ih =>
    obtain ⟨v, ds, hr, hk⟩ := withRead_cases addr s
    have hm : (memRead addr s).2 = s.setDevices ds := hk fun _ t => t
    obtain ⟨es, hr', he⟩ := ih (addr + 1) (s.setDevices ds)
    exact ⟨es, hr.trans hr', by simp only [readBytes, hm, he]; rfl⟩

/-- A dispatch reads, then either runs a defined instruction or records an undefined opcode; there is no
third outcome. -/
theorem dispatch_cases (s : State) :
    ∃ ds, OnlyRead s.devices ds ∧
      ((∃ i, dispatch s = exec i (s.setDevices ds)) ∨
        ∃ opcode, formOf opcode = none ∧ dispatch s = .next (raiseUnknownOpcode opcode (s.setDevices ds))) := by
  obtain ⟨v, ds, hr, hk⟩ := withRead_cases s.pc s
  have h2 : (memRead s.pc s).2 = s.setDevices ds := hk fun _ t => t
  obtain ⟨es, hr', he⟩ := readBytes_cases (s.pc + 1) (operandCount (memRead s.pc s).1) (s.setDevices ds)
  have hlen := readBytes_length (s.pc + 1) (operandCount (memRead s.pc s).1) (s.setDevices ds)
  refine ⟨es, hr.trans hr', ?_⟩
  simp only [dispatch, fetch, h2, he]
  cases hf : formOf (memRead s.pc s).1 with
  | none =>
    right
    exact ⟨_, hf, by simp only [decode, hf]; rfl⟩
  | some f =>
    left
    simp only [operandCount, hf] at hlen
    obtain ⟨i, hi⟩ := Form.decode_ok (opcode := (memRead s.pc s).1) hlen
    exact ⟨i, by simp only [decode, operandCount, hf, hi]; rfl⟩

/-- A dispatch on a described bus, at an instruction: that instruction runs, with nothing around it. -/
theorem dispatch_of_decode {s : State} (h : s.quiet) {i : Instr} {rest : List Byte}
    (hd : decode [s.peek s.pc, s.peek (s.pcPlus 1), s.peek (s.pcPlus 2)] = .ok i rest) :
    dispatch s = exec i s := by
  rw [pcPlus_eq, pcPlus_eq] at hd
  have hone : s.pc + BitVec.ofNat 16 1 = s.pc + 1 := rfl
  have htwo : s.pc + 1 + BitVec.ofNat 16 1 = s.pc + BitVec.ofNat 16 2 := by
    rw [BitVec.add_assoc]; rfl
  have hzero : s.pc + 1 + BitVec.ofNat 16 0 = s.pc + 1 := by simp
  rw [hone] at hd
  simp only [dispatch, fetch, memRead_of_quiet h, readBytes_of_quiet h]
  simp only [decode] at hd
  cases hf : formOf (s.peek s.pc) with
  | none => simp [hf] at hd
  | some f =>
    simp only [hf] at hd
    have key : f.decode (s.peek s.pc)
        ((List.range (operandCount (s.peek s.pc))).map fun k => s.peek (s.pc + 1 + BitVec.ofNat 16 k)) = .ok i [] := by
      simp only [operandCount, hf]
      cases f with
      | plain j =>
        exact Form.decode_append (bs := []) rfl _ hd
      | byte g =>
        simp only [Form.operandCount, List.range_succ, List.range_zero, List.nil_append, List.map_cons, List.map_nil,
          hzero]
        exact Form.decode_append (bs := [_]) rfl [_] hd
      | word g =>
        simp only [Form.operandCount, List.range_succ, List.range_zero, List.nil_append, List.cons_append,
          List.map_cons, List.map_nil, hzero, htwo]
        exact Form.decode_append (bs := [_, _]) rfl [] hd
    simp only [decode, hf, key]

/-- A dispatch on a described bus, at an undefined opcode. -/
theorem dispatch_of_undefined {s : State} (h : s.quiet) (hf : formOf (s.peek s.pc) = none) :
    dispatch s = .next (raiseUnknownOpcode (s.peek s.pc) s) := by
  simp only [dispatch, fetch, memRead_of_quiet h, readBytes_of_quiet h, decode, hf]

/-! ## Ticks -/

theorem cpuTick_atDispatch {s : State} (h : s.atDispatch) : cpuTick s = dispatch s := by
  simp only [State.atDispatch, State.running, Bool.and_eq_true, decide_eq_true_eq, Option.isNone_iff_eq_none] at h
  obtain ⟨⟨⟨he, hh⟩, hb⟩, _⟩ := h
  simp [cpuTick, he, hh, hb]

/-- The ticks of other devices change nothing but the device list, each device by its own tick. -/
theorem tickEach_devices {ids : List DeviceId} (hc : .cpu ∉ ids) (hn : ids.Nodup) (s : State) :
    tickEach ids s =
      .next (s.setDevices (s.devices.map fun d => if d.handle ∈ ids then d.tick else d)) := by
  induction ids generalizing s with
  | nil => simp [tickEach]; rfl
  | cons id ids ih =>
    simp only [List.mem_cons, not_or, List.nodup_cons] at hc hn
    obtain ⟨k, rfl⟩ : ∃ k, id = .dev k := by
      cases id with
      | cpu => exact absurd rfl hc.1
      | dev k => exact ⟨k, rfl⟩
    simp only [tickEach, tickOne, ih hc.2 hn.2]
    congr 1
    simp only [deviceTick, State.setDevices, List.map_map]
    congr 1
    refine List.map_congr_left fun d _ => ?_
    simp only [Function.comp, List.mem_cons]
    by_cases hd : d.handle = .dev k
    · simp [hd, hn.1]
    · simp [hd]

/-- Ticks one after the other. -/
theorem tickEach_append (ids jds : List DeviceId) (s : State) :
    tickEach (ids ++ jds) s =
      match tickEach ids s with
      | .next t => tickEach jds t
      | .fault f => .fault f
      | .refused e => .refused e := by
  induction ids generalizing s with
  | nil => rfl
  | cons id ids ih =>
    simp only [List.cons_append, tickEach]
    cases tickOne id s with
    | next t => exact ih t
    | fault f => rfl
    | refused e => rfl

/-- Ticks that find no device with a tick of its own change nothing. -/
theorem tickEach_still {ids : List DeviceId} (hc : .cpu ∉ ids) {s : State}
    (hs : ∀ d ∈ s.devices, d.tick = d) : tickEach ids s = .next s := by
  induction ids with
  | nil => rfl
  | cons id ids ih =>
    simp only [List.mem_cons, not_or] at hc
    obtain ⟨k, rfl⟩ : ∃ k, id = .dev k := by
      cases id with
      | cpu => exact absurd rfl hc.1
      | dev k => exact ⟨k, rfl⟩
    have hd : deviceTick (.dev k) s = s := by
      have : (s.devices.map fun d => if d.handle = .dev k then d.tick else d) = s.devices := by
        conv_rhs => rw [← List.map_id s.devices]
        exact List.map_congr_left fun d h => by simp [hs d h]
      rw [deviceTick, this]
      rfl
    simp only [tickEach, tickOne, hd]
    exact ih hc.2

/-- Where only the CPU ticks, and its tick leaves it so, one `Bus.tick()` is the CPU's tick. -/
theorem busTick_of_onlyCpuTicks {s : State} (h : s.onlyCpuTicks)
    (hk : ∀ t, cpuTick s = .next t → ∀ d ∈ t.devices, d.tick = d) : busTick s = cpuTick s := by
  simp only [State.onlyCpuTicks, Bool.and_eq_true, decide_eq_true_eq, List.all_eq_true] at h
  obtain ⟨h1, h2⟩ := h
  have hs : ∀ d ∈ s.devices, d.tick = d := by
    intro d hd
    have := h2 d hd
    cases d <;> simp_all [Device.tick]
  have hcpu : Device.cpu ∈ s.devices := by
    by_contra hc
    rw [List.filter_eq_nil_iff.mpr fun d hd => by simpa using fun e : d = .cpu => hc (e ▸ hd)] at h1
    simp at h1
  obtain ⟨pre, post, hsplit⟩ := List.append_of_mem hcpu
  rw [hsplit] at h1
  simp only [List.filter_append, List.filter_cons, decide_true, if_true, List.length_append, List.length_cons] at h1
  have hno : ∀ l : List Device, (l.filter fun d => decide (d = .cpu)).length = 0 → DeviceId.cpu ∉ l.map Device.handle := by
    intro l hl hm
    obtain ⟨d, hd, he⟩ := List.mem_map.mp hm
    have : d = .cpu := by cases d <;> simp_all [Device.handle]
    have hf := List.filter_eq_nil_iff.mp (List.length_eq_zero_iff.mp hl) d hd
    simp [this] at hf
  simp only [busTick, hsplit, List.map_append, List.map_cons]
  rw [tickEach_append, tickEach_still (hno pre (by omega)) hs]
  simp only [tickEach, tickOne, Device.handle]
  cases hct : cpuTick s with
  | next t => exact tickEach_still (hno post (by omega)) (hk t hct)
  | fault f => rfl
  | refused e => rfl

/-! ## Bring-up -/

@[simp] theorem constructed_devices (u : State) (built : List Device) : (u.constructed built).devices = [] := rfl

@[simp] theorem constructed_detached (u : State) (built : List Device) :
    (u.constructed built).detached = .cpu :: built := rfl

@[simp] theorem constructed_everReset (u : State) (built : List Device) :
    (u.constructed built).everReset = false := rfl

@[simp] theorem constructed_calls (u : State) (built : List Device) :
    (u.constructed built).calls = u.calls := rfl

@[simp] theorem constructed_params (u : State) (built : List Device) :
    (u.constructed built).params = u.params := rfl

/-- With a call ahead, a step is that call, used up. -/
theorem step_call {s : State} {call : HostCall} {rest : List HostCall} (h : s.calls = call :: rest) :
    step s = hostCall call (s.setCalls rest) := by
  simp only [step, advanceMachine, h]

/-- In a list without a handle twice, the device found under a member's handle is that member. -/
theorem findDevice_of_mem {ds : List Device} (hn : (ds.map Device.handle).Nodup) {d : Device} (h : d ∈ ds) :
    findDevice d.handle ds = some d := by
  induction ds with
  | nil => cases h
  | cons e ds ih =>
    simp only [List.map_cons, List.nodup_cons] at hn
    rcases List.mem_cons.mp h with rfl | h
    · simp [findDevice]
    · have : e.handle ≠ d.handle := fun he => hn.1 (he ▸ List.mem_map_of_mem h)
      simpa [findDevice, this] using ih hn.2 h

/-- No device is found under a handle that none has. -/
theorem findDevice_eq_none {ds : List Device} {id : DeviceId} (h : ∀ d ∈ ds, d.handle ≠ id) :
    findDevice id ds = none := by
  simpa [findDevice] using h

/-- Dropping a member's handle removes that member and no other device. -/
theorem dropDevice_of_mem {ds : List Device} (hn : (ds.map Device.handle).Nodup) {d : Device} (h : d ∈ ds) :
    dropDevice d.handle ds = ds.filter fun e => decide (e ≠ d) := by
  refine List.filter_congr fun e he => ?_
  rw [decide_eq_decide, not_iff_not]
  exact ⟨fun hh => List.inj_on_of_nodup_map hn he h hh, fun hh => hh ▸ rfl⟩

/-- Connecting a device that exists and is not connected puts it first and takes it out of the others. -/
theorem connect_of_mem_detached {s : State} (hn : s.handles.Nodup) {d : Device} (h : d ∈ s.detached) :
    connect d.handle s =
      .next ((s.setDevices (d :: s.devices)).setDetached (dropDevice d.handle s.detached)) := by
  simp only [State.handles, List.map_append, List.nodup_append] at hn
  have hc : findDevice d.handle s.devices = none :=
    findDevice_eq_none fun e he hh =>
      hn.2.2 _ (List.mem_map_of_mem he) _ (List.mem_map_of_mem h) hh
  simp only [connect, hc, findDevice_of_mem hn.2.1 h]

end Sys2Proof.Machine
end

