-- ==== Sys2Proof/Laws/PerInstr.lean ====
section
/-! SUPPORT. Per-instruction law: an instruction is well formed, its mnemonic has its mode, and its
opcode is found in the table with the instruction's own form, of its own number of operand bytes. -/

namespace Sys2Proof.Laws.EncodedForm

set_option maxRecDepth 2000

/-- The instruction is well formed, and its encoding has its length and decodes from its own opcode's
table row (30_encoding R90, R92, R110). -/
def Statement (i : Instr) : Prop :=
  i.wellFormed = true ∧ (encode i).length = i.length ∧
    formOf i.opcode = some i.form ∧ i.form.operandCount = i.length - 1

theorem ldaIzx (p : Byte) : Statement (.ldaIzx p) := ⟨rfl, rfl, rfl, rfl⟩
theorem ldaZp (p : Byte) : Statement (.ldaZp p) := ⟨rfl, rfl, rfl, rfl⟩
theorem ldaImm (v : Byte) : Statement (.ldaImm v) := ⟨rfl, rfl, rfl, rfl⟩
theorem ldaAbs (w : Addr) : Statement (.ldaAbs w) := ⟨rfl, rfl, rfl, rfl⟩
theorem ldaIzy (p : Byte) : Statement (.ldaIzy p) := ⟨rfl, rfl, rfl, rfl⟩
theorem ldaZpx (p : Byte) : Statement (.ldaZpx p) := ⟨rfl, rfl, rfl, rfl⟩
theorem ldaAby (w : Addr) : Statement (.ldaAby w) := ⟨rfl, rfl, rfl, rfl⟩
theorem ldaAbx (w : Addr) : Statement (.ldaAbx w) := ⟨rfl, rfl, rfl, rfl⟩
theorem ldxImm (v : Byte) : Statement (.ldxImm v) := ⟨rfl, rfl, rfl, rfl⟩
theorem ldxZp (p : Byte) : Statement (.ldxZp p) := ⟨rfl, rfl, rfl, rfl⟩
theorem ldxAbs (w : Addr) : Statement (.ldxAbs w) := ⟨rfl, rfl, rfl, rfl⟩
theorem ldxZpy (p : Byte) : Statement (.ldxZpy p) := ⟨rfl, rfl, rfl, rfl⟩
theorem ldxAby (w : Addr) : Statement (.ldxAby w) := ⟨rfl, rfl, rfl, rfl⟩
theorem ldyImm (v : Byte) : Statement (.ldyImm v) := ⟨rfl, rfl, rfl, rfl⟩
theorem ldyZp (p : Byte) : Statement (.ldyZp p) := ⟨rfl, rfl, rfl, rfl⟩
theorem ldyAbs (w : Addr) : Statement (.ldyAbs w) := ⟨rfl, rfl, rfl, rfl⟩
theorem ldyZpx (p : Byte) : Statement (.ldyZpx p) := ⟨rfl, rfl, rfl, rfl⟩
theorem ldyAbx (w : Addr) : Statement (.ldyAbx w) := ⟨rfl, rfl, rfl, rfl⟩
theorem staIzx (p : Byte) : Statement (.staIzx p) := ⟨rfl, rfl, rfl, rfl⟩
theorem staZp (p : Byte) : Statement (.staZp p) := ⟨rfl, rfl, rfl, rfl⟩
theorem staAbs (w : Addr) : Statement (.staAbs w) := ⟨rfl, rfl, rfl, rfl⟩
theorem staIzy (p : Byte) : Statement (.staIzy p) := ⟨rfl, rfl, rfl, rfl⟩
theorem staZpx (p : Byte) : Statement (.staZpx p) := ⟨rfl, rfl, rfl, rfl⟩
theorem staAby (w : Addr) : Statement (.staAby w) := ⟨rfl, rfl, rfl, rfl⟩
theorem staAbx (w : Addr) : Statement (.staAbx w) := ⟨rfl, rfl, rfl, rfl⟩
theorem stxZp (p : Byte) : Statement (.stxZp p) := ⟨rfl, rfl, rfl, rfl⟩
theorem stxAbs (w : Addr) : Statement (.stxAbs w) := ⟨rfl, rfl, rfl, rfl⟩
theorem stxZpy (p : Byte) : Statement (.stxZpy p) := ⟨rfl, rfl, rfl, rfl⟩
theorem styZp (p : Byte) : Statement (.styZp p) := ⟨rfl, rfl, rfl, rfl⟩
theorem styAbs (w : Addr) : Statement (.styAbs w) := ⟨rfl, rfl, rfl, rfl⟩
theorem styZpx (p : Byte) : Statement (.styZpx p) := ⟨rfl, rfl, rfl, rfl⟩
theorem tax : Statement (.tax) := ⟨rfl, rfl, rfl, rfl⟩
theorem tay : Statement (.tay) := ⟨rfl, rfl, rfl, rfl⟩
theorem txa : Statement (.txa) := ⟨rfl, rfl, rfl, rfl⟩
theorem tya : Statement (.tya) := ⟨rfl, rfl, rfl, rfl⟩
theorem tsx : Statement (.tsx) := ⟨rfl, rfl, rfl, rfl⟩
theorem txs : Statement (.txs) := ⟨rfl, rfl, rfl, rfl⟩
theorem adcIzx (p : Byte) : Statement (.adcIzx p) := ⟨rfl, rfl, rfl, rfl⟩
theorem adcZp (p : Byte) : Statement (.adcZp p) := ⟨rfl, rfl, rfl, rfl⟩
theorem adcImm (v : Byte) : Statement (.adcImm v) := ⟨rfl, rfl, rfl, rfl⟩
theorem adcAbs (w : Addr) : Statement (.adcAbs w) := ⟨rfl, rfl, rfl, rfl⟩
theorem adcIzy (p : Byte) : Statement (.adcIzy p) := ⟨rfl, rfl, rfl, rfl⟩
theorem adcZpx (p : Byte) : Statement (.adcZpx p) := ⟨rfl, rfl, rfl, rfl⟩
theorem adcAby (w : Addr) : Statement (.adcAby w) := ⟨rfl, rfl, rfl, rfl⟩
theorem adcAbx (w : Addr) : Statement (.adcAbx w) := ⟨rfl, rfl, rfl, rfl⟩
theorem sbcIzx (p : Byte) : Statement (.sbcIzx p) := ⟨rfl, rfl, rfl, rfl⟩
theorem sbcZp (p : Byte) : Statement (.sbcZp p) := ⟨rfl, rfl, rfl, rfl⟩
theorem sbcImm (v : Byte) : Statement (.sbcImm v) := ⟨rfl, rfl, rfl, rfl⟩
theorem sbcAbs (w : Addr) : Statement (.sbcAbs w) := ⟨rfl, rfl, rfl, rfl⟩
theorem sbcIzy (p : Byte) : Statement (.sbcIzy p) := ⟨rfl, rfl, rfl, rfl⟩
theorem sbcZpx (p : Byte) : Statement (.sbcZpx p) := ⟨rfl, rfl, rfl, rfl⟩
theorem sbcAby (w : Addr) : Statement (.sbcAby w) := ⟨rfl, rfl, rfl, rfl⟩
theorem sbcAbx (w : Addr) : Statement (.sbcAbx w) := ⟨rfl, rfl, rfl, rfl⟩
theorem andIzx (p : Byte) : Statement (.andIzx p) := ⟨rfl, rfl, rfl, rfl⟩
theorem andZp (p : Byte) : Statement (.andZp p) := ⟨rfl, rfl, rfl, rfl⟩
theorem andImm (v : Byte) : Statement (.andImm v) := ⟨rfl, rfl, rfl, rfl⟩
theorem andAbs (w : Addr) : Statement (.andAbs w) := ⟨rfl, rfl, rfl, rfl⟩
theorem andIzy (p : Byte) : Statement (.andIzy p) := ⟨rfl, rfl, rfl, rfl⟩
theorem andZpx (p : Byte) : Statement (.andZpx p) := ⟨rfl, rfl, rfl, rfl⟩
theorem andAby (w : Addr) : Statement (.andAby w) := ⟨rfl, rfl, rfl, rfl⟩
theorem andAbx (w : Addr) : Statement (.andAbx w) := ⟨rfl, rfl, rfl, rfl⟩
theorem oraIzx (p : Byte) : Statement (.oraIzx p) := ⟨rfl, rfl, rfl, rfl⟩
theorem oraZp (p : Byte) : Statement (.oraZp p) := ⟨rfl, rfl, rfl, rfl⟩
theorem oraImm (v : Byte) : Statement (.oraImm v) := ⟨rfl, rfl, rfl, rfl⟩
theorem oraAbs (w : Addr) : Statement (.oraAbs w) := ⟨rfl, rfl, rfl, rfl⟩
theorem oraIzy (p : Byte) : Statement (.oraIzy p) := ⟨rfl, rfl, rfl, rfl⟩
theorem oraZpx (p : Byte) : Statement (.oraZpx p) := ⟨rfl, rfl, rfl, rfl⟩
theorem oraAby (w : Addr) : Statement (.oraAby w) := ⟨rfl, rfl, rfl, rfl⟩
theorem oraAbx (w : Addr) : Statement (.oraAbx w) := ⟨rfl, rfl, rfl, rfl⟩
theorem eorIzx (p : Byte) : Statement (.eorIzx p) := ⟨rfl, rfl, rfl, rfl⟩
theorem eorZp (p : Byte) : Statement (.eorZp p) := ⟨rfl, rfl, rfl, rfl⟩
theorem eorImm (v : Byte) : Statement (.eorImm v) := ⟨rfl, rfl, rfl, rfl⟩
theorem eorAbs (w : Addr) : Statement (.eorAbs w) := ⟨rfl, rfl, rfl, rfl⟩
theorem eorIzy (p : Byte) : Statement (.eorIzy p) := ⟨rfl, rfl, rfl, rfl⟩
theorem eorZpx (p : Byte) : Statement (.eorZpx p) := ⟨rfl, rfl, rfl, rfl⟩
theorem eorAby (w : Addr) : Statement (.eorAby w) := ⟨rfl, rfl, rfl, rfl⟩
theorem eorAbx (w : Addr) : Statement (.eorAbx w) := ⟨rfl, rfl, rfl, rfl⟩
theorem cmpIzx (p : Byte) : Statement (.cmpIzx p) := ⟨rfl, rfl, rfl, rfl⟩
theorem cmpZp (p : Byte) : Statement (.cmpZp p) := ⟨rfl, rfl, rfl, rfl⟩
theorem cmpImm (v : Byte) : Statement (.cmpImm v) := ⟨rfl, rfl, rfl, rfl⟩
theorem cmpAbs (w : Addr) : Statement (.cmpAbs w) := ⟨rfl, rfl, rfl, rfl⟩
theorem cmpIzy (p : Byte) : Statement (.cmpIzy p) := ⟨rfl, rfl, rfl, rfl⟩
theorem cmpZpx (p : Byte) : Statement (.cmpZpx p) := ⟨rfl, rfl, rfl, rfl⟩
theorem cmpAby (w : Addr) : Statement (.cmpAby w) := ⟨rfl, rfl, rfl, rfl⟩
theorem cmpAbx (w : Addr) : Statement (.cmpAbx w) := ⟨rfl, rfl, rfl, rfl⟩
theorem cpxImm (v : Byte) : Statement (.cpxImm v) := ⟨rfl, rfl, rfl, rfl⟩
theorem cpxZp (p : Byte) : Statement (.cpxZp p) := ⟨rfl, rfl, rfl, rfl⟩
theorem cpxAbs (w : Addr) : Statement (.cpxAbs w) := ⟨rfl, rfl, rfl, rfl⟩
theorem cpyImm (v : Byte) : Statement (.cpyImm v) := ⟨rfl, rfl, rfl, rfl⟩
theorem cpyZp (p : Byte) : Statement (.cpyZp p) := ⟨rfl, rfl, rfl, rfl⟩
theorem cpyAbs (w : Addr) : Statement (.cpyAbs w) := ⟨rfl, rfl, rfl, rfl⟩
theorem bitZp (p : Byte) : Statement (.bitZp p) := ⟨rfl, rfl, rfl, rfl⟩
theorem bitAbs (w : Addr) : Statement (.bitAbs w) := ⟨rfl, rfl, rfl, rfl⟩
theorem incZp (p : Byte) : Statement (.incZp p) := ⟨rfl, rfl, rfl, rfl⟩
theorem incAbs (w : Addr) : Statement (.incAbs w) := ⟨rfl, rfl, rfl, rfl⟩
theorem incZpx (p : Byte) : Statement (.incZpx p) := ⟨rfl, rfl, rfl, rfl⟩
theorem incAbx (w : Addr) : Statement (.incAbx w) := ⟨rfl, rfl, rfl, rfl⟩
theorem decZp (p : Byte) : Statement (.decZp p) := ⟨rfl, rfl, rfl, rfl⟩
theorem decAbs (w : Addr) : Statement (.decAbs w) := ⟨rfl, rfl, rfl, rfl⟩
theorem decZpx (p : Byte) : Statement (.decZpx p) := ⟨rfl, rfl, rfl, rfl⟩
theorem decAbx (w : Addr) : Statement (.decAbx w) := ⟨rfl, rfl, rfl, rfl⟩
theorem inx : Statement (.inx) := ⟨rfl, rfl, rfl, rfl⟩
theorem iny : Statement (.iny) := ⟨rfl, rfl, rfl, rfl⟩
theorem dex : Statement (.dex) := ⟨rfl, rfl, rfl, rfl⟩
theorem dey : Statement (.dey) := ⟨rfl, rfl, rfl, rfl⟩
theorem aslZp (p : Byte) : Statement (.aslZp p) := ⟨rfl, rfl, rfl, rfl⟩
theorem aslAcc : Statement (.aslAcc) := ⟨rfl, rfl, rfl, rfl⟩
theorem aslAbs (w : Addr) : Statement (.aslAbs w) := ⟨rfl, rfl, rfl, rfl⟩
theorem aslZpx (p : Byte) : Statement (.aslZpx p) := ⟨rfl, rfl, rfl, rfl⟩
theorem aslAbx (w : Addr) : Statement (.aslAbx w) := ⟨rfl, rfl, rfl, rfl⟩
theorem lsrZp (p : Byte) : Statement (.lsrZp p) := ⟨rfl, rfl, rfl, rfl⟩
theorem lsrAcc : Statement (.lsrAcc) := ⟨rfl, rfl, rfl, rfl⟩
theorem lsrAbs (w : Addr) : Statement (.lsrAbs w) := ⟨rfl, rfl, rfl, rfl⟩
theorem lsrZpx (p : Byte) : Statement (.lsrZpx p) := ⟨rfl, rfl, rfl, rfl⟩
theorem lsrAbx (w : Addr) : Statement (.lsrAbx w) := ⟨rfl, rfl, rfl, rfl⟩
theorem rolZp (p : Byte) : Statement (.rolZp p) := ⟨rfl, rfl, rfl, rfl⟩
theorem rolAcc : Statement (.rolAcc) := ⟨rfl, rfl, rfl, rfl⟩
theorem rolAbs (w : Addr) : Statement (.rolAbs w) := ⟨rfl, rfl, rfl, rfl⟩
theorem rolZpx (p : Byte) : Statement (.rolZpx p) := ⟨rfl, rfl, rfl, rfl⟩
theorem rolAbx (w : Addr) : Statement (.rolAbx w) := ⟨rfl, rfl, rfl, rfl⟩
theorem rorZp (p : Byte) : Statement (.rorZp p) := ⟨rfl, rfl, rfl, rfl⟩
theorem rorAcc : Statement (.rorAcc) := ⟨rfl, rfl, rfl, rfl⟩
theorem rorAbs (w : Addr) : Statement (.rorAbs w) := ⟨rfl, rfl, rfl, rfl⟩
theorem rorZpx (p : Byte) : Statement (.rorZpx p) := ⟨rfl, rfl, rfl, rfl⟩
theorem rorAbx (w : Addr) : Statement (.rorAbx w) := ⟨rfl, rfl, rfl, rfl⟩
theorem jmpAbs (w : Addr) : Statement (.jmpAbs w) := ⟨rfl, rfl, rfl, rfl⟩
theorem jmpInd (w : Addr) : Statement (.jmpInd w) := ⟨rfl, rfl, rfl, rfl⟩
theorem jsr (w : Addr) : Statement (.jsr w) := ⟨rfl, rfl, rfl, rfl⟩
theorem rts : Statement (.rts) := ⟨rfl, rfl, rfl, rfl⟩
theorem bcc (d : Byte) : Statement (.bcc d) := ⟨rfl, rfl, rfl, rfl⟩
theorem bcs (d : Byte) : Statement (.bcs d) := ⟨rfl, rfl, rfl, rfl⟩
theorem beq (d : Byte) : Statement (.beq d) := ⟨rfl, rfl, rfl, rfl⟩
theorem bne (d : Byte) : Statement (.bne d) := ⟨rfl, rfl, rfl, rfl⟩
theorem bmi (d : Byte) : Statement (.bmi d) := ⟨rfl, rfl, rfl, rfl⟩
theorem bpl (d : Byte) : Statement (.bpl d) := ⟨rfl, rfl, rfl, rfl⟩
theorem bvc (d : Byte) : Statement (.bvc d) := ⟨rfl, rfl, rfl, rfl⟩
theorem bvs (d : Byte) : Statement (.bvs d) := ⟨rfl, rfl, rfl, rfl⟩
theorem pha : Statement (.pha) := ⟨rfl, rfl, rfl, rfl⟩
theorem pla : Statement (.pla) := ⟨rfl, rfl, rfl, rfl⟩
theorem php : Statement (.php) := ⟨rfl, rfl, rfl, rfl⟩
theorem plp : Statement (.plp) := ⟨rfl, rfl, rfl, rfl⟩
theorem clc : Statement (.clc) := ⟨rfl, rfl, rfl, rfl⟩
theorem sec : Statement (.sec) := ⟨rfl, rfl, rfl, rfl⟩
theorem cli : Statement (.cli) := ⟨rfl, rfl, rfl, rfl⟩
theorem sei : Statement (.sei) := ⟨rfl, rfl, rfl, rfl⟩
theorem cld : Statement (.cld) := ⟨rfl, rfl, rfl, rfl⟩
theorem sed : Statement (.sed) := ⟨rfl, rfl, rfl, rfl⟩
theorem clv : Statement (.clv) := ⟨rfl, rfl, rfl, rfl⟩
theorem nop : Statement (.nop) := ⟨rfl, rfl, rfl, rfl⟩
theorem brk : Statement (.brk) := ⟨rfl, rfl, rfl, rfl⟩
theorem rti : Statement (.rti) := ⟨rfl, rfl, rfl, rfl⟩

end Sys2Proof.Laws.EncodedForm

namespace Sys2Proof

open Laws in
/-- Every instruction is encoded as the law says. -/
theorem encodedForm : ∀ i : Instr, EncodedForm.Statement i
  | .ldaIzx x => EncodedForm.ldaIzx x
  | .ldaZp x => EncodedForm.ldaZp x
  | .ldaImm x => EncodedForm.ldaImm x
  | .ldaAbs x => EncodedForm.ldaAbs x
  | .ldaIzy x => EncodedForm.ldaIzy x
  | .ldaZpx x => EncodedForm.ldaZpx x
  | .ldaAby x => EncodedForm.ldaAby x
  | .ldaAbx x => EncodedForm.ldaAbx x
  | .ldxImm x => EncodedForm.ldxImm x
  | .ldxZp x => EncodedForm.ldxZp x
  | .ldxAbs x => EncodedForm.ldxAbs x
  | .ldxZpy x => EncodedForm.ldxZpy x
  | .ldxAby x => EncodedForm.ldxAby x
  | .ldyImm x => EncodedForm.ldyImm x
  | .ldyZp x => EncodedForm.ldyZp x
  | .ldyAbs x => EncodedForm.ldyAbs x
  | .ldyZpx x => EncodedForm.ldyZpx x
  | .ldyAbx x => EncodedForm.ldyAbx x
  | .staIzx x => EncodedForm.staIzx x
  | .staZp x => EncodedForm.staZp x
  | .staAbs x => EncodedForm.staAbs x
  | .staIzy x => EncodedForm.staIzy x
  | .staZpx x => EncodedForm.staZpx x
  | .staAby x => EncodedForm.staAby x
  | .staAbx x => EncodedForm.staAbx x
  | .stxZp x => EncodedForm.stxZp x
  | .stxAbs x => EncodedForm.stxAbs x
  | .stxZpy x => EncodedForm.stxZpy x
  | .styZp x => EncodedForm.styZp x
  | .styAbs x => EncodedForm.styAbs x
  | .styZpx x => EncodedForm.styZpx x
  | .tax => EncodedForm.tax
  | .tay => EncodedForm.tay
  | .txa => EncodedForm.txa
  | .tya => EncodedForm.tya
  | .tsx => EncodedForm.tsx
  | .txs => EncodedForm.txs
  | .adcIzx x => EncodedForm.adcIzx x
  | .adcZp x => EncodedForm.adcZp x
  | .adcImm x => EncodedForm.adcImm x
  | .adcAbs x => EncodedForm.adcAbs x
  | .adcIzy x => EncodedForm.adcIzy x
  | .adcZpx x => EncodedForm.adcZpx x
  | .adcAby x => EncodedForm.adcAby x
  | .adcAbx x => EncodedForm.adcAbx x
  | .sbcIzx x => EncodedForm.sbcIzx x
  | .sbcZp x => EncodedForm.sbcZp x
  | .sbcImm x => EncodedForm.sbcImm x
  | .sbcAbs x => EncodedForm.sbcAbs x
  | .sbcIzy x => EncodedForm.sbcIzy x
  | .sbcZpx x => EncodedForm.sbcZpx x
  | .sbcAby x => EncodedForm.sbcAby x
  | .sbcAbx x => EncodedForm.sbcAbx x
  | .andIzx x => EncodedForm.andIzx x
  | .andZp x => EncodedForm.andZp x
  | .andImm x => EncodedForm.andImm x
  | .andAbs x => EncodedForm.andAbs x
  | .andIzy x => EncodedForm.andIzy x
  | .andZpx x => EncodedForm.andZpx x
  | .andAby x => EncodedForm.andAby x
  | .andAbx x => EncodedForm.andAbx x
  | .oraIzx x => EncodedForm.oraIzx x
  | .oraZp x => EncodedForm.oraZp x
  | .oraImm x => EncodedForm.oraImm x
  | .oraAbs x => EncodedForm.oraAbs x
  | .oraIzy x => EncodedForm.oraIzy x
  | .oraZpx x => EncodedForm.oraZpx x
  | .oraAby x => EncodedForm.oraAby x
  | .oraAbx x => EncodedForm.oraAbx x
  | .eorIzx x => EncodedForm.eorIzx x
  | .eorZp x => EncodedForm.eorZp x
  | .eorImm x => EncodedForm.eorImm x
  | .eorAbs x => EncodedForm.eorAbs x
  | .eorIzy x => EncodedForm.eorIzy x
  | .eorZpx x => EncodedForm.eorZpx x
  | .eorAby x => EncodedForm.eorAby x
  | .eorAbx x => EncodedForm.eorAbx x
  | .cmpIzx x => EncodedForm.cmpIzx x
  | .cmpZp x => EncodedForm.cmpZp x
  | .cmpImm x => EncodedForm.cmpImm x
  | .cmpAbs x => EncodedForm.cmpAbs x
  | .cmpIzy x => EncodedForm.cmpIzy x
  | .cmpZpx x => EncodedForm.cmpZpx x
  | .cmpAby x => EncodedForm.cmpAby x
  | .cmpAbx x => EncodedForm.cmpAbx x
  | .cpxImm x => EncodedForm.cpxImm x
  | .cpxZp x => EncodedForm.cpxZp x
  | .cpxAbs x => EncodedForm.cpxAbs x
  | .cpyImm x => EncodedForm.cpyImm x
  | .cpyZp x => EncodedForm.cpyZp x
  | .cpyAbs x => EncodedForm.cpyAbs x
  | .bitZp x => EncodedForm.bitZp x
  | .bitAbs x => EncodedForm.bitAbs x
  | .incZp x => EncodedForm.incZp x
  | .incAbs x => EncodedForm.incAbs x
  | .incZpx x => EncodedForm.incZpx x
  | .incAbx x => EncodedForm.incAbx x
  | .decZp x => EncodedForm.decZp x
  | .decAbs x => EncodedForm.decAbs x
  | .decZpx x => EncodedForm.decZpx x
  | .decAbx x => EncodedForm.decAbx x
  | .inx => EncodedForm.inx
  | .iny => EncodedForm.iny
  | .dex => EncodedForm.dex
  | .dey => EncodedForm.dey
  | .aslZp x => EncodedForm.aslZp x
  | .aslAcc => EncodedForm.aslAcc
  | .aslAbs x => EncodedForm.aslAbs x
  | .aslZpx x => EncodedForm.aslZpx x
  | .aslAbx x => EncodedForm.aslAbx x
  | .lsrZp x => EncodedForm.lsrZp x
  | .lsrAcc => EncodedForm.lsrAcc
  | .lsrAbs x => EncodedForm.lsrAbs x
  | .lsrZpx x => EncodedForm.lsrZpx x
  | .lsrAbx x => EncodedForm.lsrAbx x
  | .rolZp x => EncodedForm.rolZp x
  | .rolAcc => EncodedForm.rolAcc
  | .rolAbs x => EncodedForm.rolAbs x
  | .rolZpx x => EncodedForm.rolZpx x
  | .rolAbx x => EncodedForm.rolAbx x
  | .rorZp x => EncodedForm.rorZp x
  | .rorAcc => EncodedForm.rorAcc
  | .rorAbs x => EncodedForm.rorAbs x
  | .rorZpx x => EncodedForm.rorZpx x
  | .rorAbx x => EncodedForm.rorAbx x
  | .jmpAbs x => EncodedForm.jmpAbs x
  | .jmpInd x => EncodedForm.jmpInd x
  | .jsr x => EncodedForm.jsr x
  | .rts => EncodedForm.rts
  | .bcc x => EncodedForm.bcc x
  | .bcs x => EncodedForm.bcs x
  | .beq x => EncodedForm.beq x
  | .bne x => EncodedForm.bne x
  | .bmi x => EncodedForm.bmi x
  | .bpl x => EncodedForm.bpl x
  | .bvc x => EncodedForm.bvc x
  | .bvs x => EncodedForm.bvs x
  | .pha => EncodedForm.pha
  | .pla => EncodedForm.pla
  | .php => EncodedForm.php
  | .plp => EncodedForm.plp
  | .clc => EncodedForm.clc
  | .sec => EncodedForm.sec
  | .cli => EncodedForm.cli
  | .sei => EncodedForm.sei
  | .cld => EncodedForm.cld
  | .sed => EncodedForm.sed
  | .clv => EncodedForm.clv
  | .nop => EncodedForm.nop
  | .brk => EncodedForm.brk
  | .rti => EncodedForm.rti

/-- The decoder finds the form of an instruction by its opcode. -/
theorem formOf_opcode (i : Instr) : formOf i.opcode = some i.form := (encodedForm i).2.2.1

end Sys2Proof
end

