-- ==== Sys2Proof/Tests/Slice0.lean ====
section
/-! SUPPORT. Tests: the well-formedness checks, every opcode's decoding, one or two steps of every
mnemonic, the host's operations, and for every statement that has hypotheses a state that meets them.
Expected results are those of spec/95_test_vectors.md; its row is named beside each. -/

namespace Sys2Proof.Tests

open Machine

/-! ## Well-formedness refuses ill-formed terms -/

theorem test_wellFormed_refuses_a_mode_the_mnemonic_lacks :
    Op.sta.hasMode .imm = false ∧ Op.jmp.hasMode .zp = false ∧ Op.ldx.hasMode .zpx = false ∧
      Op.inc.hasMode .acc = false := by decide

theorem test_params_refuses_no_reset_cycles : ({ Params.default with resetCycles := 0 } : Params).wellFormed = false := by
  decide

theorem test_memory_wf_refuses_an_unlisted_byte_that_is_listed : Memory.wf 256 [(3, 0x00)] = false := by decide

theorem test_memory_wf_refuses_an_order_that_does_not_rise : Memory.wf 256 [(3, 0x01), (3, 0x02)] = false := by decide

theorem test_memory_wf_refuses_an_index_past_the_capacity : Memory.wf 256 [(256, 0x01)] = false := by decide

theorem test_ram_wf_refuses_no_capacity : ({ Ram.flat with capacity := 0 } : Ram).wf = false := by decide

/-! ## Decoding

Each row is the byte pattern of the opcode table with operand bytes 0x34 and 0x12. -/

/-- Every row decodes to its instruction, with the byte after it left over. -/
def decodesTo (rows : List (List Byte × Instr)) : Bool :=
  rows.all fun r => decide (decode (r.1 ++ [0xEA]) = .ok r.2 [0xEA])

/-- Loads, stores and transfers (41). -/
theorem test_decode_load_store_1 :
    decodesTo
      [([0xA1, 0x34], .ldaIzx 0x34), ([0xA5, 0x34], .ldaZp 0x34), ([0xA9, 0x34], .ldaImm 0x34),
       ([0xAD, 0x34, 0x12], .ldaAbs 0x1234), ([0xB1, 0x34], .ldaIzy 0x34),
       ([0xB5, 0x34], .ldaZpx 0x34), ([0xB9, 0x34, 0x12], .ldaAby 0x1234),
       ([0xBD, 0x34, 0x12], .ldaAbx 0x1234), ([0xA2, 0x34], .ldxImm 0x34), ([0xA6, 0x34], .ldxZp 0x34),
       ([0xAE, 0x34, 0x12], .ldxAbs 0x1234), ([0xB6, 0x34], .ldxZpy 0x34),
       ([0xBE, 0x34, 0x12], .ldxAby 0x1234), ([0xA0, 0x34], .ldyImm 0x34), ([0xA4, 0x34], .ldyZp 0x34),
       ([0xAC, 0x34, 0x12], .ldyAbs 0x1234), ([0xB4, 0x34], .ldyZpx 0x34),
       ([0xBC, 0x34, 0x12], .ldyAbx 0x1234), ([0x81, 0x34], .staIzx 0x34),
       ([0x85, 0x34], .staZp 0x34)] = true := by decide

/-- Loads, stores and transfers (41). -/
theorem test_decode_load_store_2 :
    decodesTo
      [([0x8D, 0x34, 0x12], .staAbs 0x1234), ([0x91, 0x34], .staIzy 0x34),
       ([0x95, 0x34], .staZpx 0x34), ([0x99, 0x34, 0x12], .staAby 0x1234),
       ([0x9D, 0x34, 0x12], .staAbx 0x1234), ([0x86, 0x34], .stxZp 0x34),
       ([0x8E, 0x34, 0x12], .stxAbs 0x1234), ([0x96, 0x34], .stxZpy 0x34), ([0x84, 0x34], .styZp 0x34),
       ([0x8C, 0x34, 0x12], .styAbs 0x1234), ([0x94, 0x34], .styZpx 0x34), ([0xAA], .tax),
       ([0xA8], .tay), ([0x8A], .txa), ([0x98], .tya), ([0xBA], .tsx),
       ([0x9A], .txs)] = true := by decide

/-- Add, subtract and logic (42). -/
theorem test_decode_arith_1 :
    decodesTo
      [([0x61, 0x34], .adcIzx 0x34), ([0x65, 0x34], .adcZp 0x34), ([0x69, 0x34], .adcImm 0x34),
       ([0x6D, 0x34, 0x12], .adcAbs 0x1234), ([0x71, 0x34], .adcIzy 0x34),
       ([0x75, 0x34], .adcZpx 0x34), ([0x79, 0x34, 0x12], .adcAby 0x1234),
       ([0x7D, 0x34, 0x12], .adcAbx 0x1234), ([0xE1, 0x34], .sbcIzx 0x34), ([0xE5, 0x34], .sbcZp 0x34),
       ([0xE9, 0x34], .sbcImm 0x34), ([0xED, 0x34, 0x12], .sbcAbs 0x1234),
       ([0xF1, 0x34], .sbcIzy 0x34), ([0xF5, 0x34], .sbcZpx 0x34),
       ([0xF9, 0x34, 0x12], .sbcAby 0x1234), ([0xFD, 0x34, 0x12], .sbcAbx 0x1234),
       ([0x21, 0x34], .andIzx 0x34), ([0x25, 0x34], .andZp 0x34), ([0x29, 0x34], .andImm 0x34),
       ([0x2D, 0x34, 0x12], .andAbs 0x1234)] = true := by decide

/-- Add, subtract and logic (42). -/
theorem test_decode_arith_2 :
    decodesTo
      [([0x31, 0x34], .andIzy 0x34), ([0x35, 0x34], .andZpx 0x34),
       ([0x39, 0x34, 0x12], .andAby 0x1234), ([0x3D, 0x34, 0x12], .andAbx 0x1234),
       ([0x01, 0x34], .oraIzx 0x34), ([0x05, 0x34], .oraZp 0x34), ([0x09, 0x34], .oraImm 0x34),
       ([0x0D, 0x34, 0x12], .oraAbs 0x1234), ([0x11, 0x34], .oraIzy 0x34),
       ([0x15, 0x34], .oraZpx 0x34), ([0x19, 0x34, 0x12], .oraAby 0x1234),
       ([0x1D, 0x34, 0x12], .oraAbx 0x1234), ([0x41, 0x34], .eorIzx 0x34), ([0x45, 0x34], .eorZp 0x34),
       ([0x49, 0x34], .eorImm 0x34), ([0x4D, 0x34, 0x12], .eorAbs 0x1234),
       ([0x51, 0x34], .eorIzy 0x34), ([0x55, 0x34], .eorZpx 0x34),
       ([0x59, 0x34, 0x12], .eorAby 0x1234), ([0x5D, 0x34, 0x12], .eorAbx 0x1234)] = true := by decide

/-- Compare, bit test, increment and decrement (42). -/
theorem test_decode_compare_1 :
    decodesTo
      [([0xC1, 0x34], .cmpIzx 0x34), ([0xC5, 0x34], .cmpZp 0x34), ([0xC9, 0x34], .cmpImm 0x34),
       ([0xCD, 0x34, 0x12], .cmpAbs 0x1234), ([0xD1, 0x34], .cmpIzy 0x34),
       ([0xD5, 0x34], .cmpZpx 0x34), ([0xD9, 0x34, 0x12], .cmpAby 0x1234),
       ([0xDD, 0x34, 0x12], .cmpAbx 0x1234), ([0xE0, 0x34], .cpxImm 0x34), ([0xE4, 0x34], .cpxZp 0x34),
       ([0xEC, 0x34, 0x12], .cpxAbs 0x1234), ([0xC0, 0x34], .cpyImm 0x34), ([0xC4, 0x34], .cpyZp 0x34),
       ([0xCC, 0x34, 0x12], .cpyAbs 0x1234), ([0x24, 0x34], .bitZp 0x34),
       ([0x2C, 0x34, 0x12], .bitAbs 0x1234), ([0xE6, 0x34], .incZp 0x34),
       ([0xEE, 0x34, 0x12], .incAbs 0x1234), ([0xF6, 0x34], .incZpx 0x34),
       ([0xFE, 0x34, 0x12], .incAbx 0x1234)] = true := by decide

/-- Compare, bit test, increment and decrement (42). -/
theorem test_decode_compare_2 :
    decodesTo
      [([0xC6, 0x34], .decZp 0x34), ([0xCE, 0x34, 0x12], .decAbs 0x1234), ([0xD6, 0x34], .decZpx 0x34),
       ([0xDE, 0x34, 0x12], .decAbx 0x1234), ([0xE8], .inx), ([0xC8], .iny), ([0xCA], .dex),
       ([0x88], .dey)] = true := by decide

/-- Shifts and rotates (43). -/
theorem test_decode_shift :
    decodesTo
      [([0x06, 0x34], .aslZp 0x34), ([0x0A], .aslAcc), ([0x0E, 0x34, 0x12], .aslAbs 0x1234),
       ([0x16, 0x34], .aslZpx 0x34), ([0x1E, 0x34, 0x12], .aslAbx 0x1234), ([0x46, 0x34], .lsrZp 0x34),
       ([0x4A], .lsrAcc), ([0x4E, 0x34, 0x12], .lsrAbs 0x1234), ([0x56, 0x34], .lsrZpx 0x34),
       ([0x5E, 0x34, 0x12], .lsrAbx 0x1234), ([0x26, 0x34], .rolZp 0x34), ([0x2A], .rolAcc),
       ([0x2E, 0x34, 0x12], .rolAbs 0x1234), ([0x36, 0x34], .rolZpx 0x34),
       ([0x3E, 0x34, 0x12], .rolAbx 0x1234), ([0x66, 0x34], .rorZp 0x34), ([0x6A], .rorAcc),
       ([0x6E, 0x34, 0x12], .rorAbs 0x1234), ([0x76, 0x34], .rorZpx 0x34),
       ([0x7E, 0x34, 0x12], .rorAbx 0x1234)] = true := by decide

/-- Control flow (44). -/
theorem test_decode_control :
    decodesTo
      [([0x4C, 0x34, 0x12], .jmpAbs 0x1234), ([0x6C, 0x34, 0x12], .jmpInd 0x1234),
       ([0x20, 0x34, 0x12], .jsr 0x1234), ([0x60], .rts), ([0x90, 0x34], .bcc 0x34),
       ([0xB0, 0x34], .bcs 0x34), ([0xF0, 0x34], .beq 0x34), ([0xD0, 0x34], .bne 0x34),
       ([0x30, 0x34], .bmi 0x34), ([0x10, 0x34], .bpl 0x34), ([0x50, 0x34], .bvc 0x34),
       ([0x70, 0x34], .bvs 0x34)] = true := by decide

/-- Stack, flags and system (45). -/
theorem test_decode_system :
    decodesTo
      [([0x48], .pha), ([0x68], .pla), ([0x08], .php), ([0x28], .plp), ([0x18], .clc), ([0x38], .sec),
       ([0x58], .cli), ([0x78], .sei), ([0xD8], .cld), ([0xF8], .sed), ([0xB8], .clv), ([0xEA], .nop),
       ([0x00], .brk), ([0x40], .rti)] = true := by decide

/-- Undefined opcodes, no bytes and missing operand bytes are refused by name (30_encoding R118). -/
theorem test_decode_refusals :
    decode [0x02] = .rejected (.unknownOpcode 0x02) ∧ decode [0xFF, 0x00] = .rejected (.unknownOpcode 0xFF) ∧
      decode [] = .rejected .noBytes ∧ decode [0xAD, 0x00] = .rejected (.truncated 0xAD) ∧
      decode [0xA9] = .rejected (.truncated 0xA9) := by decide

/-- A table word of a row: bit 0 is bit 0 of the first byte. -/
theorem test_decodeTableWord :
    decodeTableWord 24 0x1234BD = some (.ldaAbx 0x1234) ∧ decodeTableWord 8 0xBD = some (.ldaAbx 0x0000) ∧
      decodeTableWord 8 0x02 = none := by decide

/-! ## One step -/

/-- The registers of a test, the flags as a status byte. -/
structure Regs where
  a : Byte := 0x00
  x : Byte := 0x00
  y : Byte := 0x00
  sp : Byte := 0xFD
  pc : Addr := 0x0200
  p : Byte := 0x20
  deriving DecidableEq, Repr

/-- A canonical memory with these bytes. -/
def memoryOf (cells : List (Nat × Byte)) : Memory := cells.foldl (fun m c => Memory.set m c.1 c.2) []

/-- The setup of spec/95 section 2: flat RAM with these bytes, and an instruction at PC. -/
def start (bytes : List Byte) (cells : List (Nat × Byte)) (r : Regs) : State :=
  { State.reset with
    a := r.a, x := r.x, y := r.y, sp := r.sp, pc := r.pc, flags := unpackStatus r.p, budget := 0
    devices := [.cpu, .ram 0 { Ram.flat with
      cells := memoryOf (cells ++ bytes.mapIdx fun k b => ((r.pc.toNat + k) % 65536, b)) }] }

/-- What a test looks at: the registers, the ticks a dispatch takes, and some bytes. -/
def seen (addrs : List Addr) : Result → Option (Regs × Nat × List Byte)
  | .next t =>
    some ({ a := t.a, x := t.x, y := t.y, sp := t.sp, pc := t.pc, p := packStatus t.flags }, t.budget + 1,
      addrs.map t.peek)
  | .fault _ => none
  | .refused _ => none

/-- One step from the setup. -/
def after (bytes : List Byte) (cells : List (Nat × Byte)) (r : Regs) (addrs : List Addr) :
    Option (Regs × Nat × List Byte) :=
  seen addrs (step (start bytes cells r))

/-- V10. -/
theorem test_lda_V10 :
    after [0xB1, 0xFF] [(0x0000, 0x20), (0x00FF, 0xF0), (0x0100, 0x30), (0x2100, 0x5A)] { y := 0x10 } [] =
      some ({ a := 0x5A, y := 0x10, pc := 0x0202 }, 6, []) := by decide

/-- V9. -/
theorem test_lda_V9 :
    after [0xA1, 0xFE] [(0x0000, 0x12), (0x00FF, 0x34), (0x0100, 0x77), (0x1234, 0xAB)] { x := 0x01 } [] =
      some ({ a := 0xAB, x := 0x01, pc := 0x0202, p := 0xA0 }, 6, []) := by decide

/-- V14. -/
theorem test_ldx_V14 :
    after [0xBE, 0xFF, 0x80] [(0x8100, 0xFF)] { y := 0x01 } [] =
      some ({ x := 0xFF, y := 0x01, pc := 0x0203, p := 0xA0 }, 5, []) := by decide

/-- V233. -/
theorem test_ldx_V233 :
    after [0xA6, 0x40] [(0x0040, 0x5A)] { a := 0x3C, p := 0x21 } [] =
      some ({ a := 0x3C, x := 0x5A, pc := 0x0202, p := 0x21 }, 3, []) := by decide

/-- V16. -/
theorem test_ldy_V16 :
    after [0xBC, 0x00, 0x30] [(0x30FF, 0x00)] { x := 0xFF, y := 0x09 } [] =
      some ({ x := 0xFF, pc := 0x0203, p := 0x22 }, 4, []) := by decide

/-- V17. -/
theorem test_ldy_V17 :
    after [0xB4, 0x30] [(0x002F, 0x81)] { x := 0xFF } [] =
      some ({ x := 0xFF, y := 0x81, pc := 0x0202, p := 0xA0 }, 4, []) := by decide

/-- V21. -/
theorem test_sta_V21 :
    after [0x91, 0x40] [(0x0040, 0xFF), (0x0041, 0x30)] { a := 0x11, y := 0x01 } [0x3100] =
      some ({ a := 0x11, y := 0x01, pc := 0x0202 }, 6, [0x11]) := by decide

/-- V22. -/
theorem test_sta_V22 :
    after [0x81, 0xFE] [(0x0000, 0x40), (0x00FF, 0x00)] { a := 0x22, x := 0x01 } [0x4000] =
      some ({ a := 0x22, x := 0x01, pc := 0x0202 }, 6, [0x22]) := by decide

/-- V250. -/
theorem test_stx_V250 :
    after [0x86, 0x40] [(0x0040, 0x5A)] { a := 0x3C, p := 0x21 } [0x0040] =
      some ({ a := 0x3C, pc := 0x0202, p := 0x21 }, 3, [0x00]) := by decide

/-- V23. -/
theorem test_stx_V23 :
    after [0x96, 0xF0] [] { x := 0x5A, y := 0x20 } [0x0010] =
      some ({ x := 0x5A, y := 0x20, pc := 0x0202 }, 4, [0x5A]) := by decide

/-- V251. -/
theorem test_sty_V251 :
    after [0x84, 0x40] [(0x0040, 0x5A)] { a := 0x3C, p := 0x21 } [0x0040] =
      some ({ a := 0x3C, pc := 0x0202, p := 0x21 }, 3, [0x00]) := by decide

/-- V25. -/
theorem test_sty_V25 :
    after [0x94, 0xFF] [] { x := 0x02, y := 0x7F } [0x0001] =
      some ({ x := 0x02, y := 0x7F, pc := 0x0202 }, 4, [0x7F]) := by decide

/-- V27. -/
theorem test_tax_V27 :
    after [0xAA] [] { a := 0x80 } [] =
      some ({ a := 0x80, x := 0x80, pc := 0x0201, p := 0xA0 }, 2, []) := by decide

/-- V28. -/
theorem test_tay_V28 :
    after [0xA8] [] { y := 0x05 } [] =
      some ({ pc := 0x0201, p := 0x22 }, 2, []) := by decide

/-- V29. -/
theorem test_txa_V29 :
    after [0x8A] [] { a := 0xFF, x := 0x7F, p := 0xA0 } [] =
      some ({ a := 0x7F, x := 0x7F, pc := 0x0201 }, 2, []) := by decide

/-- V30. -/
theorem test_tya_V30 :
    after [0x98] [] { y := 0xFF } [] =
      some ({ a := 0xFF, y := 0xFF, pc := 0x0201, p := 0xA0 }, 2, []) := by decide

/-- V32. -/
theorem test_tsx_V32 :
    after [0xBA] [] { x := 0x07, sp := 0x00 } [] =
      some ({ sp := 0x00, pc := 0x0201, p := 0x22 }, 2, []) := by decide

/-- V31. -/
theorem test_tsx_V31 :
    after [0xBA] [] { } [] =
      some ({ x := 0xFD, pc := 0x0201, p := 0xA0 }, 2, []) := by decide

/-- V33. -/
theorem test_txs_V33 :
    after [0x9A] [] { p := 0xA0 } [] =
      some ({ sp := 0x00, pc := 0x0201, p := 0xA0 }, 2, []) := by decide

/-- V34. -/
theorem test_txs_V34 :
    after [0x9A] [] { x := 0xFF } [] =
      some ({ x := 0xFF, sp := 0xFF, pc := 0x0201 }, 2, []) := by decide

/-- V209. -/
theorem test_adc_V209 :
    after [0x61, 0x40] [(0x0044, 0x10), (0x0045, 0x03), (0x0310, 0x5A)] { a := 0x3C, x := 0x04, p := 0x21 } [] =
      some ({ a := 0x97, x := 0x04, pc := 0x0202, p := 0xE0 }, 6, []) := by decide

/-- V47. -/
theorem test_adc_V47 :
    after [0x71, 0x20] [(0x0020, 0xFF), (0x0021, 0x12), (0x1300, 0x10)] { a := 0x05, y := 0x01, p := 0x21 } [] =
      some ({ a := 0x16, y := 0x01, pc := 0x0202 }, 6, []) := by decide

/-- V59. -/
theorem test_sbc_V59 :
    after [0xFD, 0xFF, 0x12] [(0x1300, 0x01)] { x := 0x01, p := 0x61 } [] =
      some ({ a := 0xFF, x := 0x01, pc := 0x0203, p := 0xA0 }, 5, []) := by decide

/-- V243. -/
theorem test_sbc_V243 :
    after [0xE1, 0x40] [(0x0044, 0x10), (0x0045, 0x03), (0x0310, 0x5A)] { a := 0x3C, x := 0x04, p := 0x21 } [] =
      some ({ a := 0xE2, x := 0x04, pc := 0x0202, p := 0xA0 }, 6, []) := by decide

/-- V214. -/
theorem test_and_V214 :
    after [0x21, 0x40] [(0x0044, 0x10), (0x0045, 0x03), (0x0310, 0x5A)] { a := 0x3C, x := 0x04, p := 0x21 } [] =
      some ({ a := 0x18, x := 0x04, pc := 0x0202, p := 0x21 }, 6, []) := by decide

/-- V217. -/
theorem test_and_V217 :
    after [0x31, 0x40] [(0x0040, 0x00), (0x0041, 0x03), (0x0305, 0x5A)] { a := 0x3C, y := 0x05, p := 0x21 } [] =
      some ({ a := 0x18, y := 0x05, pc := 0x0202, p := 0x21 }, 5, []) := by decide

/-- V75. -/
theorem test_ora_V75 :
    after [0x01, 0x10] [(0x0014, 0x00), (0x0015, 0x03), (0x0300, 0x55)] { a := 0xAA, x := 0x04 } [] =
      some ({ a := 0xFF, x := 0x04, pc := 0x0202, p := 0xA0 }, 6, []) := by decide

/-- V239. -/
theorem test_ora_V239 :
    after [0x11, 0x40] [(0x0040, 0x00), (0x0041, 0x03), (0x0305, 0x5A)] { a := 0x3C, y := 0x05, p := 0x21 } [] =
      some ({ a := 0x7E, y := 0x05, pc := 0x0202, p := 0x21 }, 5, []) := by decide

/-- V226. -/
theorem test_eor_V226 :
    after [0x41, 0x40] [(0x0044, 0x10), (0x0045, 0x03), (0x0310, 0x5A)] { a := 0x3C, x := 0x04, p := 0x21 } [] =
      some ({ a := 0x66, x := 0x04, pc := 0x0202, p := 0x21 }, 6, []) := by decide

/-- V228. -/
theorem test_eor_V228 :
    after [0x51, 0x40] [(0x0040, 0x00), (0x0041, 0x03), (0x0305, 0x5A)] { a := 0x3C, y := 0x05, p := 0x21 } [] =
      some ({ a := 0x66, y := 0x05, pc := 0x0202, p := 0x21 }, 5, []) := by decide

/-- V220. -/
theorem test_cmp_V220 :
    after [0xC1, 0x40] [(0x0044, 0x10), (0x0045, 0x03), (0x0310, 0x5A)] { a := 0x3C, x := 0x04, p := 0x21 } [] =
      some ({ a := 0x3C, x := 0x04, pc := 0x0202, p := 0xA0 }, 6, []) := by decide

/-- V223. -/
theorem test_cmp_V223 :
    after [0xD1, 0x40] [(0x0040, 0x00), (0x0041, 0x03), (0x0305, 0x5A)] { a := 0x3C, y := 0x05, p := 0x21 } [] =
      some ({ a := 0x3C, y := 0x05, pc := 0x0202, p := 0xA0 }, 5, []) := by decide

/-- V88. -/
theorem test_cpx_V88 :
    after [0xEC, 0x00, 0x03] [(0x0300, 0x01)] { x := 0xFF } [] =
      some ({ x := 0xFF, pc := 0x0203, p := 0xA1 }, 4, []) := by decide

/-- V86. -/
theorem test_cpx_V86 :
    after [0xE0, 0x05] [] { x := 0x05 } [] =
      some ({ x := 0x05, pc := 0x0202, p := 0x23 }, 2, []) := by decide

/-- V90. -/
theorem test_cpy_V90 :
    after [0xC4, 0x30] [(0x0030, 0x10)] { y := 0x10, p := 0xA0 } [] =
      some ({ y := 0x10, pc := 0x0202, p := 0x23 }, 3, []) := by decide

/-- V91. -/
theorem test_cpy_V91 :
    after [0xCC, 0x00, 0x03] [(0x0300, 0x81)] { y := 0x80, p := 0x21 } [] =
      some ({ y := 0x80, pc := 0x0203, p := 0xA0 }, 4, []) := by decide

/-- V94. -/
theorem test_bit_V94 :
    after [0x2C, 0x34, 0x12] [(0x1234, 0x3F)] { a := 0xC0, p := 0xE0 } [] =
      some ({ a := 0xC0, pc := 0x0203, p := 0x22 }, 4, []) := by decide

/-- V92. -/
theorem test_bit_V92 :
    after [0x24, 0x10] [(0x0010, 0xC0)] { a := 0x01 } [] =
      some ({ a := 0x01, pc := 0x0202, p := 0xE2 }, 3, []) := by decide

/-- V97. -/
theorem test_inc_V97 :
    after [0xE6, 0x10] [(0x0010, 0x7F)] { p := 0x21 } [0x0010] =
      some ({ pc := 0x0202, p := 0xA1 }, 5, [0x80]) := by decide

/-- V99. -/
theorem test_inc_V99 :
    after [0xFE, 0xF0, 0x12] [(0x1310, 0x00)] { x := 0x20 } [0x1310] =
      some ({ x := 0x20, pc := 0x0203 }, 7, [0x01]) := by decide

/-- V101. -/
theorem test_dec_V101 :
    after [0xC6, 0x10] [(0x0010, 0x00)] { } [0x0010] =
      some ({ pc := 0x0202, p := 0xA0 }, 5, [0xFF]) := by decide

/-- V104. -/
theorem test_dec_V104 :
    after [0xCE, 0x00, 0x03] [(0x0300, 0x81)] { } [0x0300] =
      some ({ pc := 0x0203, p := 0xA0 }, 6, [0x80]) := by decide

/-- V106. -/
theorem test_inx_V106 :
    after [0xE8] [] { x := 0xFF } [] =
      some ({ pc := 0x0201, p := 0x22 }, 2, []) := by decide

/-- V107. -/
theorem test_inx_V107 :
    after [0xE8] [] { x := 0x7F } [] =
      some ({ x := 0x80, pc := 0x0201, p := 0xA0 }, 2, []) := by decide

/-- V109. -/
theorem test_iny_V109 :
    after [0xC8] [] { y := 0xFF, p := 0x21 } [] =
      some ({ pc := 0x0201, p := 0x23 }, 2, []) := by decide

/-- V108. -/
theorem test_iny_V108 :
    after [0xC8] [] { } [] =
      some ({ y := 0x01, pc := 0x0201 }, 2, []) := by decide

/-- V111. -/
theorem test_dex_V111 :
    after [0xCA] [] { x := 0x01 } [] =
      some ({ pc := 0x0201, p := 0x22 }, 2, []) := by decide

/-- V110. -/
theorem test_dex_V110 :
    after [0xCA] [] { } [] =
      some ({ x := 0xFF, pc := 0x0201, p := 0xA0 }, 2, []) := by decide

/-- V113. -/
theorem test_dey_V113 :
    after [0x88] [] { y := 0x01, p := 0x21 } [] =
      some ({ pc := 0x0201, p := 0x23 }, 2, []) := by decide

/-- V112. -/
theorem test_dey_V112 :
    after [0x88] [] { y := 0x0A } [] =
      some ({ y := 0x09, pc := 0x0201 }, 2, []) := by decide

/-- V116. -/
theorem test_asl_V116 :
    after [0x06, 0x10] [(0x0010, 0xC0)] { a := 0x11 } [0x0010] =
      some ({ a := 0x11, pc := 0x0202, p := 0xA1 }, 5, [0x80]) := by decide

/-- V118. -/
theorem test_asl_V118 :
    after [0x0E, 0x00, 0x03] [(0x0300, 0x00)] { p := 0x21 } [0x0300] =
      some ({ pc := 0x0203, p := 0x22 }, 6, [0x00]) := by decide

/-- V124. -/
theorem test_lsr_V124 :
    after [0x4E, 0x00, 0x03] [(0x0300, 0x01)] { } [0x0300] =
      some ({ pc := 0x0203, p := 0x23 }, 6, [0x00]) := by decide

/-- V121. -/
theorem test_lsr_V121 :
    after [0x4A] [] { a := 0x80, p := 0xA1 } [] =
      some ({ a := 0x40, pc := 0x0201 }, 2, []) := by decide

/-- V130. -/
theorem test_rol_V130 :
    after [0x36, 0xF0] [(0x0010, 0xFF)] { x := 0x20 } [0x0010] =
      some ({ x := 0x20, pc := 0x0202, p := 0xA1 }, 6, [0xFE]) := by decide

/-- V131. -/
theorem test_rol_V131 :
    after [0x2E, 0x00, 0x03] [(0x0300, 0x55)] { p := 0x21 } [0x0300] =
      some ({ pc := 0x0203, p := 0xA0 }, 6, [0xAB]) := by decide

/-- V137. -/
theorem test_ror_V137 :
    after [0x76, 0xF0] [(0x0010, 0x01)] { x := 0x20 } [0x0010] =
      some ({ x := 0x20, pc := 0x0202, p := 0x23 }, 6, [0x00]) := by decide

/-- V138. -/
theorem test_ror_V138 :
    after [0x6E, 0x00, 0x03] [(0x0300, 0x80)] { p := 0x21 } [0x0300] =
      some ({ pc := 0x0203, p := 0xA0 }, 6, [0xC0]) := by decide

/-- V142. -/
theorem test_jmp_V142 :
    after [0x6C, 0xFF, 0x03] [(0x0300, 0x56), (0x03FF, 0x78), (0x0400, 0x99)] { } [] =
      some ({ pc := 0x5678 }, 5, []) := by decide

/-- V143. -/
theorem test_jmp_V143 :
    after [0x4C, 0x34] [(0x0000, 0x12)] { pc := 0xFFFE } [] =
      some ({ pc := 0x1234 }, 3, []) := by decide

/-- V145. -/
theorem test_jsr_V145 :
    after [0x20, 0x34, 0x12] [] { sp := 0x00 } [0x0100, 0x01FF] =
      some ({ sp := 0xFE, pc := 0x1234 }, 6, [0x02, 0x02]) := by decide

/-- V144. -/
theorem test_jsr_V144 :
    after [0x20, 0x34, 0x12] [] { } [0x01FD, 0x01FC] =
      some ({ sp := 0xFB, pc := 0x1234 }, 6, [0x02, 0x02]) := by decide

/-- V148. -/
theorem test_rts_V148 :
    after [0x60] [(0x0100, 0xFF), (0x0101, 0xFF)] { sp := 0xFF } [] =
      some ({ sp := 0x01, pc := 0x0000 }, 6, []) := by decide

/-- V147. -/
theorem test_rts_V147 :
    after [0x60] [(0x01FE, 0x02), (0x01FF, 0x80)] { } [] =
      some ({ sp := 0xFF, pc := 0x8003 }, 6, []) := by decide

/-- V150. -/
theorem test_bcc_V150 :
    after [0x90, 0x05] [] { } [] =
      some ({ pc := 0x0207 }, 3, []) := by decide

/-- V151. -/
theorem test_bcc_V151 :
    after [0x90, 0x05] [] { p := 0x21 } [] =
      some ({ pc := 0x0202, p := 0x21 }, 2, []) := by decide

/-- V152. -/
theorem test_bcs_V152 :
    after [0xB0, 0x05] [] { p := 0x21 } [] =
      some ({ pc := 0x0207, p := 0x21 }, 3, []) := by decide

/-- V153. -/
theorem test_bcs_V153 :
    after [0xB0, 0x05] [] { } [] =
      some ({ pc := 0x0202 }, 2, []) := by decide

/-- V154. -/
theorem test_beq_V154 :
    after [0xF0, 0x7F] [] { p := 0x22 } [] =
      some ({ pc := 0x0281, p := 0x22 }, 3, []) := by decide

/-- V157. -/
theorem test_beq_V157 :
    after [0xF0, 0x00] [] { } [] =
      some ({ pc := 0x0202 }, 2, []) := by decide

/-- V158. -/
theorem test_bne_V158 :
    after [0xD0, 0x02] [] { } [] =
      some ({ pc := 0x0204 }, 3, []) := by decide

/-- V159. -/
theorem test_bne_V159 :
    after [0xD0, 0x02] [] { p := 0x22 } [] =
      some ({ pc := 0x0202, p := 0x22 }, 2, []) := by decide

/-- V163. -/
theorem test_bmi_V163 :
    after [0x30, 0xFE] [] { p := 0xA0 } [] =
      some ({ p := 0xA0 }, 3, []) := by decide

/-- V164. -/
theorem test_bmi_V164 :
    after [0x30, 0xFE] [] { } [] =
      some ({ pc := 0x0202 }, 2, []) := by decide

/-- V165. -/
theorem test_bpl_V165 :
    after [0x10, 0x10] [] { } [] =
      some ({ pc := 0x0212 }, 3, []) := by decide

/-- V166. -/
theorem test_bpl_V166 :
    after [0x10, 0x10] [] { p := 0xA0 } [] =
      some ({ pc := 0x0202, p := 0xA0 }, 2, []) := by decide

/-- V167. -/
theorem test_bvc_V167 :
    after [0x50, 0x01] [] { } [] =
      some ({ pc := 0x0203 }, 3, []) := by decide

/-- V168. -/
theorem test_bvc_V168 :
    after [0x50, 0x01] [] { p := 0x60 } [] =
      some ({ pc := 0x0202, p := 0x60 }, 2, []) := by decide

/-- V169. -/
theorem test_bvs_V169 :
    after [0x70, 0x01] [] { p := 0x60 } [] =
      some ({ pc := 0x0203, p := 0x60 }, 3, []) := by decide

/-- V170. -/
theorem test_bvs_V170 :
    after [0x70, 0x01] [] { } [] =
      some ({ pc := 0x0202 }, 2, []) := by decide

/-- V180. -/
theorem test_pha_V180 :
    after [0x48] [] { a := 0x5A, sp := 0x00 } [0x0100] =
      some ({ a := 0x5A, sp := 0xFF, pc := 0x0201 }, 3, [0x5A]) := by decide

/-- V179. -/
theorem test_pha_V179 :
    after [0x48] [] { a := 0x5A } [0x01FD] =
      some ({ a := 0x5A, sp := 0xFC, pc := 0x0201 }, 3, [0x5A]) := by decide

/-- V182. -/
theorem test_pla_V182 :
    after [0x68] [(0x01FE, 0x00)] { a := 0x11 } [] =
      some ({ sp := 0xFE, pc := 0x0201, p := 0x22 }, 4, []) := by decide

/-- V183. -/
theorem test_pla_V183 :
    after [0x68] [(0x0100, 0x7F)] { sp := 0xFF } [] =
      some ({ a := 0x7F, sp := 0x00, pc := 0x0201 }, 4, []) := by decide

/-- V185. -/
theorem test_php_V185 :
    after [0x08] [] { p := 0xEF } [0x01FD] =
      some ({ sp := 0xFC, pc := 0x0201, p := 0xEF }, 3, [0xEF]) := by decide

/-- V186. -/
theorem test_php_V186 :
    after [0x08] [] { p := 0xA1 } [0x01FD] =
      some ({ sp := 0xFC, pc := 0x0201, p := 0xA1 }, 3, [0xA1]) := by decide

/-- V188. -/
theorem test_plp_V188 :
    after [0x28] [(0x01FE, 0x00)] { p := 0xEF } [] =
      some ({ sp := 0xFE, pc := 0x0201 }, 4, []) := by decide

/-- V187. -/
theorem test_plp_V187 :
    after [0x28] [(0x01FE, 0xFF)] { } [] =
      some ({ sp := 0xFE, pc := 0x0201, p := 0xEF }, 4, []) := by decide

/-- V191. -/
theorem test_clc_V191 :
    after [0x18] [] { p := 0xA1 } [] =
      some ({ pc := 0x0201, p := 0xA0 }, 2, []) := by decide

/-- V192. -/
theorem test_clc_V192 :
    after [0x18] [] { } [] =
      some ({ pc := 0x0201 }, 2, []) := by decide

/-- V193. -/
theorem test_sec_V193 :
    after [0x38] [] { } [] =
      some ({ pc := 0x0201, p := 0x21 }, 2, []) := by decide

/-- V194. -/
theorem test_cli_V194 :
    after [0x58] [] { p := 0x24 } [] =
      some ({ pc := 0x0201 }, 2, []) := by decide

/-- V195. -/
theorem test_sei_V195 :
    after [0x78] [] { } [] =
      some ({ pc := 0x0201, p := 0x24 }, 2, []) := by decide

/-- V196. -/
theorem test_cld_V196 :
    after [0xD8] [] { p := 0x28 } [] =
      some ({ pc := 0x0201 }, 2, []) := by decide

/-- V197. -/
theorem test_sed_V197 :
    after [0xF8] [] { } [] =
      some ({ pc := 0x0201, p := 0x28 }, 2, []) := by decide

/-- V198. -/
theorem test_clv_V198 :
    after [0xB8] [] { p := 0x62 } [] =
      some ({ pc := 0x0201, p := 0x22 }, 2, []) := by decide

/-- V199. -/
theorem test_nop_V199 :
    after [0xEA] [] { a := 0x01, x := 0x02, y := 0x03, p := 0xA1 } [] =
      some ({ a := 0x01, x := 0x02, y := 0x03, pc := 0x0201, p := 0xA1 }, 2, []) := by decide

/-- V204. -/
theorem test_brk_V204 :
    after [0x00] [(0xFFFE, 0x34), (0xFFFF, 0x12)] { sp := 0x01, pc := 0x0300 } [0x0101, 0x0100, 0x01FF] =
      some ({ sp := 0xFE, pc := 0x1234, p := 0x24 }, 7, [0x03, 0x01, 0x34]) := by decide

/-- V200. -/
theorem test_brk_V200 :
    after [0x00, 0xEE] [(0xFFFE, 0x00), (0xFFFF, 0x90)] { pc := 0x8000, p := 0x21 } [0x01FD, 0x01FC, 0x01FB] =
      some ({ sp := 0xFA, pc := 0x9000, p := 0x25 }, 7, [0x80, 0x01, 0x35]) := by decide

/-- V207. -/
theorem test_rti_V207 :
    after [0x40] [(0x01FB, 0x00), (0x01FC, 0x00), (0x01FD, 0x00)] { sp := 0xFA, pc := 0x9000, p := 0xEF } [] =
      some ({ pc := 0x0000 }, 6, []) := by decide

/-- V206. -/
theorem test_rti_V206 :
    after [0x40] [(0x01FB, 0xFF), (0x01FC, 0x34), (0x01FD, 0x12)] { sp := 0xFA, pc := 0x9000 } [] =
      some ({ pc := 0x1234, p := 0xEF }, 6, []) := by decide

/-- V62 and V64, with `SBC_V_LITERAL` true: where the literal formula differs, once each way. -/
theorem test_sbc_literal_V62_V64 :
    seen [] (step { start [0xE9, 0x01] [] { p := 0x21 } with params := { Params.default with sbcVLiteral := true } }) =
        some ({ a := 0xFF, pc := 0x0202, p := 0xE0 }, 2, []) ∧
      seen [] (step { start [0xE9, 0xFF] [] { a := 0x7F, p := 0x21 } with
          params := { Params.default with sbcVLiteral := true } }) =
        some ({ a := 0x80, pc := 0x0202, p := 0xA0 }, 2, []) := by decide

/-- BRK with `BRK_PC_SKIP` (R252): the pushed address is the opcode's plus 2. -/
theorem test_brk_skip :
    seen [0x01FD, 0x01FC, 0x01FB]
        (step { start [0x00] [(0xFFFE, 0x00), (0xFFFF, 0x90)] { } with
          params := { Params.default with brkPcSkip := true } }) =
      some ({ sp := 0xFA, pc := 0x9000, p := 0x24 }, 7, [0x02, 0x02, 0x34]) := by decide

/-! ## Ticks, the unknown-opcode fault and the reset -/

/-- The outcome is exactly this next state. -/
def nextIs (t : State) : Result → Bool
  | .next u => decide (u = t)
  | .fault _ => false
  | .refused _ => false

/-- Two outcomes are the same next state. -/
def sameNext (r : Result) : Result → Bool
  | .next u => nextIs u r
  | .fault _ => false
  | .refused _ => false

/-- The outcome is this refusal. -/
def isRefused {α : Type} (e : Refusal) : Host.Outcome α Fault Refusal → Bool
  | .next _ => false
  | .fault _ => false
  | .refused e' => decide (e' = e)

/-- E1, ticks 7 and 8: a waiting tick changes only the budget, then the dispatch. -/
theorem test_waiting_tick_E1 :
    nextIs (start [0xA2, 0x01] [] { }) (step { start [0xA2, 0x01] [] { } with budget := 1 }) = true := by decide

/-- E2, tick 3: PC stays, the record names the byte. -/
theorem test_unknown_opcode_E2 :
    nextIs { start [0x02] [] { a := 0x05, pc := 0x8002 } with halted := some (.unknownOpcode 0x8002 0x02) }
      (step (start [0x02] [] { a := 0x05, pc := 0x8002 })) = true := by decide

/-- E2, tick 4: no effect while halted. -/
theorem test_halted_tick_E2 :
    nextIs { start [0x02] [] { } with halted := some (.unknownOpcode 0x0200 0x02) }
      (step { start [0x02] [] { } with halted := some (.unknownOpcode 0x0200 0x02) }) = true := by decide

/-- The host calls of the machine, then the state, for tests of sections 8, 10 and 11. -/
def calling (calls : List HostCall) (s : State) : State := { s with calls := calls }

/-- RS2 and RS5: PC from the vector, SP 0xFD, `RESET_CYCLES`, nothing pushed. -/
theorem test_reset_RS2_RS5 :
    seen [0x01FD] (step (calling [.reset]
        { start [] [(0xFFFC, 0xCD), (0xFFFD, 0xAB), (0x01FD, 0xAA)] { a := 0x12, x := 0x34, y := 0x56, sp := 0x10, p := 0xEF } with
          params := { Params.default with resetCycles := 9 } })) =
      some ({ pc := 0xABCD }, 10, [0xAA]) := by decide

/-- RS3: the record is cleared. -/
theorem test_reset_RS3 :
    nextIs { start [] [(0xFFFD, 0x80)] { pc := 0x8000 } with budget := 7 }
      (step (calling [.reset]
        { start [] [(0xFFFD, 0x80)] { pc := 0x8002 } with halted := some (.unknownOpcode 0x8002 0x02) })) = true := by
  decide

/-- RS4: no device answers the vector. -/
theorem test_reset_RS4 :
    seen [] (step (calling [.reset] { start [] [] { } with devices := [.cpu] })) = some ({ pc := 0xFFFF }, 8, []) := by
  decide

/-! ## Triggers -/

/-- The setup of section 8. -/
def triggered (call : HostCall) (r : Regs) : State :=
  calling [call] (start [] [(0xFFFA, 0x00), (0xFFFB, 0xA0), (0xFFFE, 0x00), (0xFFFF, 0x90)] r)

/-- I1; the ticks shown are the budget plus one. -/
theorem test_irq_I1 :
    seen [0x01FD, 0x01FC, 0x01FB] (step (triggered .irq { pc := 0x8123, p := 0xA1 })) =
      some ({ sp := 0xFA, pc := 0x9000, p := 0xA5 }, 8, [0x81, 0x23, 0xA5]) := by decide

/-- I2. -/
theorem test_irq_I2 :
    nextIs (calling [] (triggered .irq { pc := 0x8123, p := 0x24 }))
      (step (triggered .irq { pc := 0x8123, p := 0x24 })) = true := by decide

/-- I3. -/
theorem test_nmi_I3 :
    seen [0x01FD, 0x01FC, 0x01FB] (step (triggered .nmi { pc := 0x8123, p := 0x26 })) =
      some ({ sp := 0xFA, pc := 0xA000, p := 0x26 }, 8, [0x81, 0x23, 0x26]) := by decide

/-- I4: the cost is added to what is left. -/
theorem test_irq_I4 :
    seen [0x01FB] (step { triggered .irq { pc := 0x8123 } with budget := 3 }) =
      some ({ sp := 0xFA, pc := 0x9000, p := 0x24 }, 11, [0x24]) := by decide

/-- I9: the stack wraps within page 1. -/
theorem test_irq_I9 :
    seen [0x0101, 0x0100, 0x01FF] (step (triggered .irq { pc := 0x8123, sp := 0x01 })) =
      some ({ sp := 0xFE, pc := 0x9000, p := 0x24 }, 8, [0x81, 0x23, 0x24]) := by decide

/-- The state of I12 with a trigger ahead. -/
def haltedBefore (calls : List HostCall) : State :=
  calling calls { triggered .nmi { pc := 0x8002 } with halted := some (.unknownOpcode 0x8002 0x02) }

/-- I12 and I13: a halted CPU drops both triggers. -/
theorem test_halted_triggers_I12_I13 :
    nextIs (haltedBefore []) (step (haltedBefore [.irq])) = true ∧
      nextIs (haltedBefore []) (step (haltedBefore [.nmi])) = true := by decide

/-- I15: a CPU that was never reset. -/
theorem test_never_reset_I15 :
    isRefused .neverReset (step { State.reset with everReset := false }) = true ∧
      isRefused .neverReset (step { triggered .irq { } with everReset := false }) = true ∧
      isRefused .neverReset (step { triggered .nmi { } with everReset := false }) = true := by decide

/-! ## The Bus, on the devices of section 11 with two bytes in place of every byte -/

/-- D1, which claims 0x0000 to 0x00FF. -/
def d1 : Device :=
  .ram 1 { lo := 0x0000, hi := 0x00FF, capacity := 256, fromWindow := true, onWrite := .stores
           cells := [(0x10, 0x11), (0x90, 0x11)] }

/-- D2, which claims 0x0080 to 0x017F. -/
def d2 : Device :=
  .ram 2 { lo := 0x0080, hi := 0x017F, capacity := 256, fromWindow := true, onWrite := .stores
           cells := [(0x10, 0x22), (0x80, 0x22)] }

/-- K, which answers 0xFF at 0x0200 only and takes no write. -/
def readOnly : Device :=
  .ram 3 { lo := 0x0200, hi := 0x0200, capacity := 1, fromWindow := true, onWrite := .declines, cells := [(0, 0xFF)] }

/-- A machine with these devices and one host call. -/
def hosted (ds detached : List Device) (call : HostCall) : State :=
  { State.reset with devices := ds, detached := detached, calls := [call] }

/-- What the host saw: its reply and the devices. -/
def hostSaw : Result → Option (HostReply × List Device)
  | .next t => some (t.reply, t.devices)
  | .fault _ => none
  | .refused _ => none

/-- B1 and B2: nobody answers. -/
theorem test_bus_B1_B2 :
    hostSaw (step (hosted [] [] (.read 0x0010))) = some (.sentinel, []) ∧
      hostSaw (step (hosted [] [] (.write 0x0010 0x55))) = some (.sentinel, []) := by decide

/-- B6: the newest device is at the head. -/
theorem test_bus_B6 : hostSaw (step (hosted [d1] [d2] (.connect (.dev 2)))) = some (.none, [d2, d1]) := by decide

/-- B7, B8 and B10: the head is asked first; it may decline. -/
theorem test_bus_B7_B8_B10 :
    hostSaw (step (hosted [d2, d1] [] (.read 0x0090))) = some (.byte 0x22, [d2, d1]) ∧
      hostSaw (step (hosted [d2, d1] [] (.read 0x0010))) = some (.byte 0x11, [d2, d1]) ∧
      hostSaw (step (hosted [d2, d1] [] (.read 0x0200))) = some (.sentinel, [d2, d1]) := by decide

/-- B11: the byte goes to D2 at index 0x10, and not to D1. -/
theorem test_bus_B11 :
    hostSaw (step (hosted [d2, d1] [] (.write 0x0090 0x77))) =
      some (.ok, [.ram 2 { lo := 0x0080, hi := 0x017F, capacity := 256, fromWindow := true, onWrite := .stores
                           cells := [(0x10, 0x77), (0x80, 0x22)] }, d1]) := by decide

/-- B13 and B16. -/
theorem test_bus_B13_B16 :
    hostSaw (step (hosted [d2, d1] [] (.disconnect (.dev 2)))) = some (.ok, [d1]) ∧
      hostSaw (step (hosted [d1] [d2] (.disconnect (.dev 2)))) = some (.notFound, [d1]) := by decide

/-- B19: only the counter ticks. -/
theorem test_bus_B19 :
    hostSaw (step (hosted [.counter 5 41, d2, d1] [] .tick)) = some (.none, [.counter 5 42, d2, d1]) := by decide

/-- R307: with the CPU not connected its state stays; B19's counter ticks. -/
theorem test_tick_without_cpu :
    nextIs { hosted [.counter 5 42, d1] [.cpu] .tick with calls := [] }
      (step (hosted [.counter 5 41, d1] [.cpu] .tick)) = true := by decide

/-- R305 and R37: construct, connect the RAM and the CPU, reset. Other registers at construction change nothing. -/
theorem test_bring_up_gives_reset :
    nextIs State.reset (stepTimes 3 (State.constructed
      { State.reset with
        a := 0x12, x := 0x34, y := 0x56, sp := 0x10, pc := 0xABCD, budget := 3
        flags := { Flags.zero with b := true, i := true }, halted := some (.unknownOpcode 0x0200 0x02)
        calls := [.connect (.dev 0), .connect .cpu, .reset] }
      [.ram 0 Ram.flat])) = true := by decide

/-- B1 to B3 on the empty list of a constructed Bus: SENTINEL, SENTINEL, then `[D1]`. -/
theorem test_constructed_bus_B1_B3 :
    hostSaw (step ((calling [.read 0x0010] State.reset).constructed [d1])) = some (.sentinel, []) ∧
      hostSaw (step ((calling [.write 0x0010 0x55] State.reset).constructed [d1])) = some (.sentinel, []) ∧
      hostSaw (step ((calling [.connect (.dev 1)] State.reset).constructed [d1])) = some (.none, [d1]) := by decide

/-- R73 and R57: a ROM that declines hides the byte from reads, and the store goes to the RAM behind it. -/
theorem test_store_behind_rom :
    (memWrite 0x0200 0x05 (hosted [readOnly, .ram 0 Ram.flat] [] .tick)).devices =
        [readOnly, .ram 0 { Ram.flat with cells := [(0x0200, 0x05)] }] ∧
      (memWrite 0x0200 0x05 (hosted [readOnly, .ram 0 Ram.flat] [] .tick)).peek 0x0200 = 0xFF := by decide

/-- B21 and B22: the byte 0xFF is an answer, SENTINEL is none. -/
theorem test_bus_B21_B22 :
    hostSaw (step (hosted [readOnly] [] (.read 0x0200))) = some (.byte 0xFF, [readOnly]) ∧
      hostSaw (step (hosted [readOnly] [] (.read 0x0201))) = some (.sentinel, [readOnly]) := by decide

/-- B23. -/
theorem test_bus_B23 :
    isRefused .deviceAlreadyConnected (step (hosted [d1] [] (.connect (.dev 1)))) = true := by decide

/-- O3 of section 12: a read nobody answers gives 0xFF, a write nobody accepts is lost. -/
theorem test_open_bus_O3 :
    seen [0x3000] (step { start [] [] { pc := 0x8000 } with
        devices := [.cpu, .ram 0 { lo := 0x8000, hi := 0x8002, capacity := 3, fromWindow := true, onWrite := .stores
                                   cells := [(0, 0xEE), (2, 0x30)] }] }) =
      some ({ pc := 0x8003, p := 0x22 }, 6, [0xFF]) := by decide

/-! ## Load and Store outside what an instruction does (R140, R141; 93 U9, U10) -/

theorem test_load_refusals :
    isRefused .impliedOperand (withLoad 0 { State.reset with tag := .implied } fun _ s => done s) = true ∧
      isRefused .accumulatorOffset (withLoad 1 { State.reset with tag := .accumulator } fun _ s => done s) = true ∧
      isRefused .accumulatorOffset (withStore 1 0x05 { State.reset with tag := .accumulator } done) = true := by decide

/-! ## The placed instruction -/

/-- The first step after placing a word runs exactly that instruction. -/
theorem test_withFetchWord :
    sameNext (step (State.reset.withFetchWord 16 0x80A9)) (exec (.ldaImm 0x80) (State.reset.withFetchWord 16 0x80A9)) =
        true ∧
      seen [] (step (State.reset.withFetchWord 16 0x80A9)) = some ({ a := 0x80, pc := 0x0002, p := 0xA0 }, 2, []) ∧
      sameNext (step (State.reset.withFetchWord 8 0x20)) (exec (.jsr 0x0000) (State.reset.withFetchWord 8 0x20)) =
        true := by decide

/-! ## Every statement's hypotheses are met -/

/-- A state on a described bus: flat RAM, no flag or register at a neutral value. -/
def sample : State :=
  start [0xBD, 0xF0, 0x12] [(0x0040, 0x34), (0x1310, 0x99), (0xFFFE, 0x00), (0xFFFF, 0x90)]
    { a := 0x5A, x := 0x20, y := 0xFF, sp := 0x01, p := 0xE1 }

/-- The sample before a host call. -/
def sampleBefore (call : HostCall) : State := calling [call] sample

theorem witness_UndefinedOpcodesAreRejected : decode [0x02] = .rejected (.unknownOpcode 0x02) := by decide

theorem witness_EncodeInvertsDecode : decode [0xBD, 0xF0, 0x12, 0x00] = .ok (.ldaAbx 0x12F0) [0x00] := by decide

theorem witness_StepRunsTheDecodedInstruction :
    sample.atDispatch = true ∧ sample.quiet = true ∧ sample.onlyCpuTicks = true ∧
      decode [sample.peek sample.pc, sample.peek (sample.pcPlus 1), sample.peek (sample.pcPlus 2)] =
        .ok (.ldaAbx 0x12F0) [] := by decide

theorem witness_BusTickRunsDevicesInOrder :
    ∃ s t u v : State, s.calls = [] ∧ s.devices = [.counter 1 4, d2] ++ .cpu :: [.counter 3 9] ∧
      (s.devices.map Device.handle).Nodup ∧
      t.calls = [.tick] ∧ t.devices = [] ++ .cpu :: [d2] ∧ (t.devices.map Device.handle).Nodup ∧
      u.calls = [] ∧ Device.cpu ∉ u.devices ∧ (u.devices.map Device.handle).Nodup ∧
      v.calls = [.tick, .nmi] ∧ Device.cpu ∉ v.devices ∧ (v.devices.map Device.handle).Nodup :=
  ⟨{ State.reset with devices := [.counter 1 4, d2, .cpu, .counter 3 9] }, hosted [.cpu, d2] [] .tick,
    { State.reset with devices := [.counter 1 4] }, calling [.tick, .nmi] (hosted [] [.cpu] .tick), by decide⟩

theorem witness_WaitingTickOnlyDecrementsTheBudget :
    ∃ s : State, s.everReset = true ∧ s.running = true ∧ s.budget = 0 + 1 ∧ s.calls = [] ∧ s.onlyCpuTicks = true :=
  ⟨{ sample with budget := 1 }, by decide⟩

theorem witness_HaltedTickChangesNothing :
    ∃ s : State, s.everReset = true ∧ s.halted = some (.unknownOpcode 0x0200 0x02) ∧ s.calls = [] ∧
      s.onlyCpuTicks = true :=
  ⟨{ sample with halted := some (.unknownOpcode 0x0200 0x02) }, by decide⟩

theorem witness_UndefinedOpcodeHaltsTheCpu :
    ∃ s : State, s.atDispatch = true ∧ s.quiet = true ∧ s.onlyCpuTicks = true ∧ (formOf (s.peek s.pc)).isNone = true :=
  ⟨start [0x02] [] { }, by decide⟩

theorem witness_NeverResetCpuIsRefused :
    ∃ s t u v : State, s.everReset = false ∧ s.calls = [.irq] ∧ t.everReset = false ∧ t.calls = [.nmi] ∧
      u.everReset = false ∧ u.calls = [] ∧ Device.cpu ∈ u.devices ∧
      v.everReset = false ∧ v.calls = [.tick] ∧ Device.cpu ∈ v.devices :=
  ⟨{ sampleBefore .irq with everReset := false }, { sampleBefore .nmi with everReset := false },
    { sample with everReset := false }, { sampleBefore .tick with everReset := false }, by decide⟩

theorem witness_OnlyResetClearsTheFault :
    ∃ s t u v : State, s.halted = some (.unknownOpcode 0x0200 0x02) ∧ step s = .next t ∧
      t.halted = some (.unknownOpcode 0x0200 0x02) ∧ u.halted = some (.unknownOpcode 0x0200 0x02) ∧
      u.calls = [.reset] ∧ step u = .next v ∧ v.halted = none :=
  ⟨{ sampleBefore .nmi with halted := some (.unknownOpcode 0x0200 0x02) }, _,
    { sampleBefore .reset with halted := some (.unknownOpcode 0x0200 0x02) }, _, by decide, rfl, by decide, by decide,
    by decide, rfl, by decide⟩

theorem witness_LoadsWriteTheirRegister :
    sample.plain = true ∧ (Instr.ldaAbs 0x12F0).op = .lda ∧ (Instr.ldxAbs 0x12F0).op = .ldx ∧
      (Instr.ldyAbs 0x12F0).op = .ldy := by decide

theorem witness_StoresWriteOneByte :
    sample.plain = true ∧ (Instr.staAbs 0x12F0).op = .sta ∧ (Instr.stxAbs 0x12F0).op = .stx ∧
      (Instr.styAbs 0x12F0).op = .sty := by decide

theorem witness_TransfersCopyARegister :
    Instr.tax.op = .tax ∧ Instr.tay.op = .tay ∧ Instr.txa.op = .txa ∧ Instr.tya.op = .tya ∧
      Instr.tsx.op = .tsx ∧ Instr.txs.op = .txs := by decide

theorem witness_AddWithCarryAddsAndSetsFlags :
    sample.plain = true ∧ (Instr.adcAbs 0x12F0).op = .adc := by decide

theorem witness_SubtractWithCarrySubtractsAndSetsFlags :
    sample.plain = true ∧ (Instr.sbcAbs 0x12F0).op = .sbc := by decide

theorem witness_LogicalOperationsWriteTheAccumulator :
    sample.plain = true ∧ (Instr.andAbs 0x12F0).op = .and ∧ (Instr.oraAbs 0x12F0).op = .ora ∧
      (Instr.eorAbs 0x12F0).op = .eor := by decide

theorem witness_ComparesSetFlagsOnly :
    sample.plain = true ∧ (Instr.cmpAbs 0x12F0).op = .cmp ∧ (Instr.cpxAbs 0x12F0).op = .cpx ∧
      (Instr.cpyAbs 0x12F0).op = .cpy := by decide

theorem witness_BitTestCopiesOperandBits :
    sample.plain = true ∧ (Instr.bitAbs 0x12F0).op = .bit := by decide

theorem witness_IncrementAndDecrementMemory :
    sample.plain = true ∧ (Instr.incAbs 0x12F0).op = .inc ∧ (Instr.decAbs 0x12F0).op = .dec := by decide

theorem witness_IncrementAndDecrementIndex :
    Instr.inx.op = .inx ∧ Instr.iny.op = .iny ∧ Instr.dex.op = .dex ∧ Instr.dey.op = .dey := by decide

theorem witness_ShiftsAndRotatesMoveOneBit :
    sample.plain = true ∧ (Instr.aslAbs 0x12F0).op = .asl ∧ (Instr.lsrAbs 0x12F0).op = .lsr ∧
      (Instr.rolAbs 0x12F0).op = .rol ∧ (Instr.rorAbs 0x12F0).op = .ror := by decide

theorem witness_JumpGoesToItsAddress :
    sample.plain = true ∧ (Instr.jmpAbs 0x12F0).op = .jmp := by decide

theorem witness_JsrPushesTheAddressOfItsLastByte :
    sample.plain = true ∧ (Instr.jsr 0x12F0).op = .jsr := by decide

theorem witness_RtsResumesAfterTheCall :
    sample.plain = true ∧ Instr.rts.op = .rts := by decide

theorem witness_BranchesTestTheirFlag :
    (Instr.bcc 0xF0).op = .bcc ∧ (Instr.bcs 0xF0).op = .bcs ∧ (Instr.beq 0xF0).op = .beq ∧
      (Instr.bne 0xF0).op = .bne ∧ (Instr.bmi 0xF0).op = .bmi ∧ (Instr.bpl 0xF0).op = .bpl ∧
      (Instr.bvc 0xF0).op = .bvc ∧ (Instr.bvs 0xF0).op = .bvs := by decide

theorem witness_PushesWriteTheStack :
    sample.plain = true ∧ Instr.pha.op = .pha ∧ Instr.php.op = .php := by decide

theorem witness_PlaLoadsFromTheStack :
    sample.plain = true ∧ Instr.pla.op = .pla := by decide

theorem witness_PlpLoadsTheFlags :
    sample.plain = true ∧ Instr.plp.op = .plp := by decide

theorem witness_FlagInstructionsWriteOneFlag :
    Instr.clc.op = .clc ∧ Instr.sec.op = .sec ∧ Instr.cli.op = .cli ∧ Instr.sei.op = .sei ∧
      Instr.cld.op = .cld ∧ Instr.sed.op = .sed ∧ Instr.clv.op = .clv := by decide

theorem witness_NopOnlyAdvances :
    Instr.nop.op = .nop := by decide

theorem witness_BrkEntersThroughTheIrqVector :
    sample.plain = true ∧ Instr.brk.op = .brk := by decide

theorem witness_RtiRestoresStatusAndPc :
    sample.plain = true ∧ Instr.rti.op = .rti := by decide

theorem witness_MaskedIrqChangesNothing :
    ∃ s t u : State, s.everReset = true ∧ s.calls = [.irq] ∧ s.flags.i = true ∧
      t.everReset = true ∧ t.calls = [.irq] ∧ t.running = false ∧
      u.everReset = true ∧ u.calls = [.nmi] ∧ u.running = false :=
  ⟨{ sampleBefore .irq with flags := { sample.flags with i := true } },
    { sampleBefore .irq with halted := some (.unknownOpcode 0x0200 0x02) },
    { sampleBefore .nmi with halted := some (.unknownOpcode 0x0200 0x02) }, by decide⟩

theorem witness_IrqEntersThroughItsVector :
    (sampleBefore .irq).plain = true ∧ (sampleBefore .irq).everReset = true ∧ (sampleBefore .irq).running = true ∧
      (sampleBefore .irq).flags.i = false ∧ (sampleBefore .irq).calls = [.irq] := by decide

theorem witness_NmiEntersThroughItsVector :
    (sampleBefore .nmi).plain = true ∧ (sampleBefore .nmi).everReset = true ∧ (sampleBefore .nmi).running = true ∧
      (sampleBefore .nmi).calls = [.nmi] := by decide

theorem witness_ResetInitialisesTheCpu :
    (sampleBefore .reset).calls = [.reset] ∧ (sampleBefore .reset).plain = true := by decide

theorem witness_ConnectPutsTheDeviceFirst :
    (hosted [d1] [d2] (.connect (.dev 1))).calls = [.connect (.dev 1)] ∧
      (∃ d ∈ (hosted [d1] [d2] (.connect (.dev 1))).devices, d.handle = .dev 1) ∧
      (hosted [d1] [d2] (.connect (.dev 2))).handles.Nodup ∧
      d2 ∈ (hosted [d1] [d2] (.connect (.dev 2))).detached ∧ d2.handle = .dev 2 ∧
      (∀ d ∈ (hosted [d1] [d2] (.connect (.dev 3))).devices ++ (hosted [d1] [d2] (.connect (.dev 3))).detached,
        d.handle ≠ .dev 3) := by decide

theorem witness_DisconnectRemovesTheDevice :
    (∀ d ∈ (hosted [d1] [d2] (.disconnect (.dev 2))).devices, d.handle ≠ .dev 2) ∧
      (hosted [.cpu, d2, d1] [] (.disconnect (.dev 2))).devices = [.cpu] ++ d2 :: [d1] ∧ d2.handle = .dev 2 ∧
      ((hosted [.cpu, d2, d1] [] (.disconnect (.dev 2))).devices.map Device.handle).Nodup := by decide

theorem witness_FirstResponderAnswersARead :
    (∀ e ∈ [Device.cpu, d1], (e.read 0x0100).1 = none) ∧ (d2.read 0x0100).1 = some 0x22 ∧
      (∀ e ∈ [Device.cpu, d1, d2], (e.read 0x0180).1 = none) ∧
      (∀ e ∈ [Device.cpu, d1], (e.write 0x0100 0x05).1 = false) ∧ (d2.write 0x0100 0x05).1 = true ∧
      (∀ e ∈ [Device.cpu, d1, readOnly], (e.write 0x0200 0x05).1 = false) := by decide

theorem witness_HostReadAndWriteReply :
    (hosted [d1] [] (.read 0x0010)).calls = [.read 0x0010] ∧
      (hosted [d1] [] (.write 0x0010 0x05)).calls = [.write 0x0010 0x05] := by decide

theorem witness_OpenBusReadsAsAllOnes :
    (hosted [d1, readOnly] [] .tick).quiet = true ∧ readCell 0x0100 (hosted [d1, readOnly] [] .tick).devices = none ∧
      ∀ d ∈ (hosted [d1, readOnly] [] .tick).devices, (d.write 0x0200 0x05).1 = false := by decide

theorem witness_RamKeepsItsBytes :
    ∃ r : Ram, d2 = .ram 2 r ∧ r.wf = true ∧ r.onWrite = .stores ∧ r.claims 0x0080 = true ∧ r.claims 0x017F = true ∧
      r.claims 0x007F = false ∧ r.claims 0x0180 = false := ⟨_, rfl, by decide⟩

theorem witness_CanonicalMemoriesAreEqual :
    255 < 256 ∧ Memory.wf 256 [(3, 0x01), (255, 0x07)] = true ∧
      (∀ j, Memory.get [(3, 0x01), (255, 0x07)] j = Memory.get [(3, 0x01), (255, 0x07)] j) :=
  ⟨by decide, by decide, fun _ => rfl⟩

theorem witness_Push16ThenPull16RoundTrips :
    sample.plain = true ∧ sample.backs [sample.stackDown 0, sample.stackDown 1] = true ∧
      sample.stackDown 0 = 0x0101 ∧ sample.stackDown 2 = 0x01FF := by decide

theorem witness_CallThenReturnResumesAfterTheCall :
    sample.plain = true ∧ sample.backs [sample.stackDown 0, sample.stackDown 1] = true ∧
      ∃ t u, exec (.jsr 0x9000) sample = .next t ∧ exec .rts t = .next u :=
  ⟨by decide, by decide, _, _, rfl, rfl⟩

theorem witness_InterruptThenReturnResumesMasked :
    sample.plain = true ∧ sample.backs [sample.stackDown 0, sample.stackDown 1, sample.stackDown 2] = true ∧
      ∃ t, exec .rti (interrupt vecIrq (setB false sample)) = .next t :=
  ⟨by decide, by decide, _, rfl⟩

theorem witness_OnlyTheListedInstructionsChangeAFlag :
    ∃ t u, exec (.adcAbx 0x12F0) sample = .next t ∧ t.flags ≠ sample.flags ∧
      exec (.staAbx 0x12F0) sample = .next u ∧ u.flags = sample.flags :=
  ⟨_, _, rfl, by decide, rfl, by decide⟩

theorem witness_OnlyTheListedInstructionsChangeARegister :
    ∃ t u, exec (.ldaAbx 0x12F0) sample = .next t ∧ t.a ≠ sample.a ∧ exec .aslAcc sample = .next u ∧ u.a ≠ sample.a :=
  ⟨_, _, rfl, by decide, rfl, by decide⟩

theorem witness_DecimalFlagHasNoEffect :
    (Instr.adcAbx 0x12F0).op ∉ [Op.php, .brk, .plp, .rti, .sed, .cld] := by decide

theorem witness_StepNeverFaultsAndKeepsTheParameters : ∃ t, step sample = .next t := ⟨_, rfl⟩

theorem witness_StoresMakeOneBusWriteAndNoRead :
    (Instr.staIzy 0x40).op = .sta ∧ (Instr.staAbx 0x12F0).op = .sta ∧ (Instr.staAbx 0x12F0).mode ∉ [Mode.izx, .izy] ∧
      (Instr.stxZpy 0xF0).op = .stx ∧ (Instr.styZpx 0xF0).op = .sty := by decide

theorem witness_ConstructedBusIsEmpty :
    ∃ a b c d e f g h : State, a.calls = [] ∧ b.calls = [.tick] ∧ c.calls = [.read 0x0010] ∧
      d.calls = [.write 0x0010 0x55] ∧ e.calls = [.disconnect (.dev 2)] ∧ f.calls = [.irq] ∧ g.calls = [.nmi] ∧
      h.calls = [.reset] :=
  ⟨calling [] sample, calling [.tick] sample, calling [.read 0x0010] sample, calling [.write 0x0010 0x55] sample,
    calling [.disconnect (.dev 2)] sample, calling [.irq] sample, calling [.nmi] sample, calling [.reset] sample,
    by decide⟩

theorem witness_BringUpConnectsThenResets :
    ((Device.cpu :: [d1, d2]).map Device.handle).Nodup ∧ [d1, d2, Device.cpu].Nodup ∧
      [d1, d2, Device.cpu] ⊆ Device.cpu :: [d1, d2] ∧
      (calling [.connect (.dev 1), .connect (.dev 2), .connect .cpu, .reset, .tick] sample).calls =
        ([d1, d2, Device.cpu].map fun d => HostCall.connect d.handle) ++ HostCall.reset :: [.tick] ∧
      [d1, d2, Device.cpu].all Device.isQuiet = true := by decide

theorem witness_StepKeepsTheInvariant : sample.Inv ∧ ∃ t, step sample = .next t :=
  ⟨by unfold State.Inv; decide, _, rfl⟩

end Sys2Proof.Tests
end

/-! SUPPORT. What one instruction can change, on any bus: the flag rows of 10_state R28, the register
rules R22 to R25, the host's side and the device list, once for all mnemonics. -/

namespace Sys2Proof.Machine

/-! ## The rows of one mnemonic -/

/-- The mnemonics that write N and Z (10_state R28). -/
def znWriters : List Op :=
  [.lda, .ldx, .ldy, .tax, .tay, .txa, .tya, .tsx, .pla, .adc, .sbc, .and, .ora, .eor, .inc, .dec, .inx, .iny,
    .dex, .dey, .asl, .lsr, .rol, .ror, .cmp, .cpx, .cpy, .bit, .plp, .rti]

/-- From flags `f` to flags `g`, a mnemonic writes only the flags whose row lists it (10_state R28), and B
only to zero. -/
structure FlagsFrame (o : Op) (f g : Flags) : Prop where
  n : g.n = f.n ∨ o ∈ znWriters
  v : g.v = f.v ∨ o ∈ [.adc, .sbc, .bit, .clv, .plp, .rti]
  d : g.d = f.d ∨ o ∈ [.sed, .cld, .plp, .rti]
  i : g.i = f.i ∨ o ∈ [.sei, .cli, .brk, .plp, .rti]
  z : g.z = f.z ∨ o ∈ znWriters
  c : g.c = f.c ∨ o ∈ [.adc, .sbc, .cmp, .cpx, .cpy, .asl, .lsr, .rol, .ror, .sec, .clc, .plp, .rti]
  b : g.b = f.b ∨ (g.b = false ∧ o ∈ [.brk, .plp, .rti])

/-- From `s` to `u`, a mnemonic writes only the registers whose rule lists it (10_state R22 to R25); a
shift writes A in accumulator mode. -/
structure RegsFrame (o : Op) (accMode : Prop) (s u : State) : Prop where
  a : u.a = s.a ∨ o ∈ [.lda, .pla, .txa, .tya, .adc, .sbc, .and, .ora, .eor] ∨
    (o ∈ [.asl, .lsr, .rol, .ror] ∧ accMode)
  x : u.x = s.x ∨ o ∈ [.ldx, .tax, .tsx, .inx, .dex]
  y : u.y = s.y ∨ o ∈ [.ldy, .tay, .iny, .dey]
  sp : u.sp = s.sp ∨ o ∈ [.txs, .pha, .php, .pla, .plp, .jsr, .rts, .brk, .rti]

/-- What a mnemonic leaves on any bus: the host's side and which devices there are, and every flag and
register it is not listed for. -/
structure OpFrame (o : Op) (accMode : Prop) (s u : State) : Prop where
  host : SameHostSide s u
  bus : BusKept s.devices u.devices
  flags : FlagsFrame o s.flags u.flags
  regs : RegsFrame o accMode s u

theorem SameHostSide.refl (s : State) : SameHostSide s s := ⟨rfl, rfl, rfl, rfl, rfl, rfl⟩

/-! ## The flags of each kind of instruction -/

theorem FlagsFrame.refl (o : Op) (f : Flags) : FlagsFrame o f f :=
  ⟨.inl rfl, .inl rfl, .inl rfl, .inl rfl, .inl rfl, .inl rfl, .inl rfl⟩

theorem FlagsFrame.of_withZN {o : Op} (h : o ∈ znWriters) (v : Byte) (f : Flags) : FlagsFrame o f (f.withZN v) :=
  ⟨.inr h, .inl rfl, .inl rfl, .inl rfl, .inr h, .inl rfl, .inl rfl⟩

theorem FlagsFrame.of_adc (a m : Byte) (f : Flags) : FlagsFrame .adc f (adcFlags a m f) :=
  ⟨.inr (by decide), .inr (by decide), .inl rfl, .inl rfl, .inr (by decide), .inr (by decide), .inl rfl⟩

theorem FlagsFrame.of_sbc (literal : Bool) (a m : Byte) (f : Flags) :
    FlagsFrame .sbc f (sbcFlags literal a m f) := by
  cases literal <;>
    exact ⟨.inr (by decide), .inr (by decide), .inl rfl, .inl rfl, .inr (by decide), .inr (by decide), .inl rfl⟩

theorem FlagsFrame.of_compare {o : Op} (h : o ∈ [Op.cmp, .cpx, .cpy]) (r m : Byte) (f : Flags) :
    FlagsFrame o f (compareFlags r m f) := by
  have hzn : o ∈ znWriters := by revert h; cases o <;> decide
  exact ⟨.inr hzn, .inl rfl, .inl rfl, .inl rfl, .inr hzn, .inr (by revert h; cases o <;> decide), .inl rfl⟩

theorem FlagsFrame.of_bit (a m : Byte) (f : Flags) : FlagsFrame .bit f (bitFlags a m f) :=
  ⟨.inr (by decide), .inr (by decide), .inl rfl, .inl rfl, .inr (by decide), .inl rfl, .inl rfl⟩

theorem FlagsFrame.of_shift {o : Op} (h : o ∈ [Op.asl, .lsr, .rol, .ror]) (p : Byte × Bool) (f : Flags) :
    FlagsFrame o f (shiftFlags p f) := by
  have hzn : o ∈ znWriters := by revert h; cases o <;> decide
  exact ⟨.inr hzn, .inl rfl, .inl rfl, .inl rfl, .inr hzn, .inr (by revert h; cases o <;> decide), .inl rfl⟩

theorem FlagsFrame.of_unpack {o : Op} (h : o ∈ [Op.plp, .rti]) (p : Byte) (f : Flags) :
    FlagsFrame o f (unpackStatus p) := by
  have hzn : o ∈ znWriters := by revert h; cases o <;> decide
  constructor
  case n | z => exact .inr hzn
  case b => exact .inr ⟨rfl, by revert h; cases o <;> decide⟩
  all_goals exact .inr (by revert h; cases o <;> decide)

/-! ## The registers of each kind of instruction -/

theorem RegsFrame.of_eq {o : Op} {accMode : Prop} {s u : State} (ha : u.a = s.a) (hx : u.x = s.x) (hy : u.y = s.y)
    (hsp : u.sp = s.sp) : RegsFrame o accMode s u := ⟨.inl ha, .inl hx, .inl hy, .inl hsp⟩

theorem RegsFrame.of_listed_a {o : Op} {accMode : Prop} {s u : State}
    (h : o ∈ [Op.lda, .pla, .txa, .tya, .adc, .sbc, .and, .ora, .eor]) (hx : u.x = s.x) (hy : u.y = s.y)
    (hsp : u.sp = s.sp) : RegsFrame o accMode s u := ⟨.inr (.inl h), .inl hx, .inl hy, .inl hsp⟩

theorem RegsFrame.of_listed_x {o : Op} {accMode : Prop} {s u : State}
    (h : o ∈ [Op.ldx, .tax, .tsx, .inx, .dex]) (ha : u.a = s.a) (hy : u.y = s.y)
    (hsp : u.sp = s.sp) : RegsFrame o accMode s u := ⟨.inl ha, .inr h, .inl hy, .inl hsp⟩

theorem RegsFrame.of_listed_y {o : Op} {accMode : Prop} {s u : State}
    (h : o ∈ [Op.ldy, .tay, .iny, .dey]) (ha : u.a = s.a) (hx : u.x = s.x)
    (hsp : u.sp = s.sp) : RegsFrame o accMode s u := ⟨.inl ha, .inl hx, .inr h, .inl hsp⟩

theorem RegsFrame.of_listed_sp {o : Op} {accMode : Prop} {s u : State}
    (h : o ∈ [Op.txs, .pha, .php, .pla, .plp, .jsr, .rts, .brk, .rti]) (ha : u.a = s.a) (hx : u.x = s.x)
    (hy : u.y = s.y) : RegsFrame o accMode s u := ⟨.inl ha, .inl hx, .inl hy, .inr h⟩

/-- The frame from `r` is one from `s` where the two agree in every flag and in the four registers. -/
theorem OpFrame.of_start {o : Op} {accMode : Prop} {s r u : State} (h : OpFrame o accMode r u)
    (hh : SameHostSide s r) (hb : BusKept s.devices r.devices) (hf : r.flags = s.flags) (ha : r.a = s.a)
    (hx : r.x = s.x) (hy : r.y = s.y) (hsp : r.sp = s.sp) : OpFrame o accMode s u := by
  obtain ⟨⟨k1, k2, k3, k4, k5, k6⟩, hbus, hflags, ⟨ra, rx, ry, rsp⟩⟩ := h
  obtain ⟨l1, l2, l3, l4, l5, l6⟩ := hh
  exact ⟨⟨k1.trans l1, k2.trans l2, k3.trans l3, k4.trans l4, k5.trans l5, k6.trans l6⟩, hb.trans hbus,
    hf ▸ hflags, ha ▸ ra, hx ▸ rx, hy ▸ ry, hsp ▸ rsp⟩

end Sys2Proof.Machine

namespace Sys2Proof

/-- The mnemonics whose operation loads or stores its operand. -/
def Op.usesOperand (o : Op) : Prop :=
  o.isRead = true ∨ o.isStore = true ∨ o.isModify = true ∨ o.isBranch = true

end Sys2Proof

namespace Sys2Proof.Machine

/-! ## Every operation -/

/-- A read operation completes within its frame when what it does with the byte stays within it. -/
theorem load_frame {o : Op} {accMode : Prop} {g : Byte → State → State} {s : State} (h : s.tag ≠ .implied)
    (hg : ∀ m t, OpFrame o accMode t (g m t)) :
    ∃ u e, (withLoad 0 s fun m t => doneEligible (g m t)) = .next (u, e) ∧ OpFrame o accMode s u := by
  obtain ⟨v, ds, hr, hk⟩ := withLoad_cases h
  exact ⟨_, _, hk _, (hg v _).of_start (.refl s) hr.kept rfl rfl rfl rfl rfl⟩

/-- A branch completes and writes no flag and no register but PC. -/
theorem branch_frame {o : Op} {s : State} (h : s.tag ≠ .implied) (cond : Bool) :
    ∃ u e, branch cond s = .next (u, e) ∧ OpFrame o (s.tag = .accumulator) s u := by
  obtain ⟨d, ds, hr, hk⟩ := withLoad_cases h
  have hb := hk fun d s =>
    if cond then
      done ((s.setBudget (s.budget + 1 + (pageDiffers (branchTarget s.pc d) s.pc).toNat)).setPc (branchTarget s.pc d))
    else done s
  cases cond <;> exact ⟨_, _, hb, .refl s, hr.kept, .refl _ _, .of_eq rfl rfl rfl rfl⟩

/-- A shift or rotate completes: it writes its operand, C, Z and N. -/
theorem shiftWith_frame {o : Op} (ho : o ∈ [Op.asl, .lsr, .rol, .ror]) (parts : Bool → Byte → Byte × Bool)
    {s : State} (h : s.tag ≠ .implied) :
    ∃ u e, shiftWith parts s = .next (u, e) ∧ OpFrame o (s.tag = .accumulator) s u := by
  obtain ⟨v, ds, hr, hk⟩ := withLoad_cases h
  obtain ⟨es, hw, -, hk'⟩ := withStore_cases (s := s.setDevices ds) h (parts s.flags.c v).1
  refine ⟨_, _, (hk _).trans (hk' _), .refl s, hr.kept.trans hw, .of_shift ho _ _, ?_, .inl rfl, .inl rfl, .inl rfl⟩
  by_cases hacc : s.tag = .accumulator
  · exact .inr (.inr ⟨ho, hacc⟩)
  · exact .inl (if_neg hacc)

/-- INC and DEC have no accumulator mode: they store on the Bus and write Z and N. -/
theorem modify_frame {o : Op} (ho : o ∈ znWriters) (f : Byte → Byte) {s : State} (h : s.tag ≠ .implied)
    (hacc : s.tag ≠ .accumulator) :
    ∃ u e, (withLoad 0 s fun m s => withStore 0 (f m) s fun s => done (setZN (f m) s)) = .next (u, e) ∧
      OpFrame o (s.tag = .accumulator) s u := by
  obtain ⟨v, ds, hr, hk⟩ := withLoad_cases h
  obtain ⟨es, hw, -, hk'⟩ := withStore_cases (s := s.setDevices ds) h (f v)
  exact ⟨_, _, (hk _).trans (hk' _), .refl s, hr.kept.trans hw, .of_withZN ho _ _, .of_eq (if_neg hacc) rfl rfl rfl⟩

/-- A store completes; it writes no flag and no register. -/
theorem store_frame {o : Op} (v : Byte) {s : State} (h : s.tag ≠ .implied) (hacc : s.tag ≠ .accumulator) :
    ∃ u e, withStore 0 v s done = .next (u, e) ∧ OpFrame o (s.tag = .accumulator) s u := by
  obtain ⟨ds, hw, -, hk⟩ := withStore_cases h v
  exact ⟨_, _, hk _, .refl s, hw, .refl _ _, .of_eq (if_neg hacc) rfl rfl rfl⟩

/-- The operation of every mnemonic completes on any bus, within its frame. Only a shift may meet the
Accumulator tag. -/
theorem opRun_frame (o : Op) {s : State} (h : o.usesOperand → s.tag ≠ .implied)
    (hacc : o ∈ [Op.sta, .stx, .sty, .inc, .dec] → s.tag ≠ .accumulator) :
    ∃ u e, opRun o s = .next (u, e) ∧ OpFrame o (s.tag = .accumulator) s u := by
  unfold opRun
  cases o with
  | lda | and | ora | eor =>
    exact load_frame (h (.inl rfl)) fun m t =>
      ⟨.refl t, .refl _, .of_withZN (by decide) _ _, .of_listed_a (by decide) rfl rfl rfl⟩
  | ldx =>
    exact load_frame (h (.inl rfl)) fun m t =>
      ⟨.refl t, .refl _, .of_withZN (by decide) _ _, .of_listed_x (by decide) rfl rfl rfl⟩
  | ldy =>
    exact load_frame (h (.inl rfl)) fun m t =>
      ⟨.refl t, .refl _, .of_withZN (by decide) _ _, .of_listed_y (by decide) rfl rfl rfl⟩
  | adc =>
    exact load_frame (h (.inl rfl)) fun m t =>
      ⟨.refl t, .refl _, .of_adc _ _ _, .of_listed_a (by decide) rfl rfl rfl⟩
  | sbc =>
    exact load_frame (h (.inl rfl)) fun m t =>
      ⟨.refl t, .refl _, .of_sbc _ _ _ _, .of_listed_a (by decide) rfl rfl rfl⟩
  | cmp | cpx | cpy =>
    exact load_frame (h (.inl rfl)) fun m t =>
      ⟨.refl t, .refl _, .of_compare (by decide) _ _ _, .of_eq rfl rfl rfl rfl⟩
  | bit =>
    exact load_frame (h (.inl rfl)) fun m t =>
      ⟨.refl t, .refl _, .of_bit _ _ _, .of_eq rfl rfl rfl rfl⟩
  | asl | lsr | rol | ror => exact shiftWith_frame (by decide) _ (h (.inr (.inr (.inl rfl))))
  | inc => exact modify_frame (by decide) (· + 1) (h (.inr (.inr (.inl rfl)))) (hacc (by decide))
  | dec => exact modify_frame (by decide) (· - 1) (h (.inr (.inr (.inl rfl)))) (hacc (by decide))
  | sta | stx | sty => exact store_frame _ (h (.inr (.inl rfl))) (hacc (by decide))
  | bcc | bcs | beq | bne | bmi | bpl | bvc | bvs => exact branch_frame (h (.inr (.inr (.inr rfl)))) _
  | tax | tsx | inx | dex =>
    exact ⟨_, _, rfl, .refl s, .refl _, .of_withZN (by decide) _ _, .of_listed_x (by decide) rfl rfl rfl⟩
  | tay | iny | dey =>
    exact ⟨_, _, rfl, .refl s, .refl _, .of_withZN (by decide) _ _, .of_listed_y (by decide) rfl rfl rfl⟩
  | txa | tya =>
    exact ⟨_, _, rfl, .refl s, .refl _, .of_withZN (by decide) _ _, .of_listed_a (by decide) rfl rfl rfl⟩
  | txs => exact ⟨_, _, rfl, .refl s, .refl _, .refl _ _, .of_listed_sp (by decide) rfl rfl rfl⟩
  | jmp | nop => exact ⟨_, _, rfl, .refl s, .refl _, .refl _ _, .of_eq rfl rfl rfl rfl⟩
  | clc | sec =>
    exact ⟨_, _, rfl, .refl s, .refl _,
      ⟨.inl rfl, .inl rfl, .inl rfl, .inl rfl, .inl rfl, .inr (by decide), .inl rfl⟩, .of_eq rfl rfl rfl rfl⟩
  | cli | sei =>
    exact ⟨_, _, rfl, .refl s, .refl _,
      ⟨.inl rfl, .inl rfl, .inl rfl, .inr (by decide), .inl rfl, .inl rfl, .inl rfl⟩, .of_eq rfl rfl rfl rfl⟩
  | cld | sed =>
    exact ⟨_, _, rfl, .refl s, .refl _,
      ⟨.inl rfl, .inl rfl, .inr (by decide), .inl rfl, .inl rfl, .inl rfl, .inl rfl⟩, .of_eq rfl rfl rfl rfl⟩
  | clv =>
    exact ⟨_, _, rfl, .refl s, .refl _,
      ⟨.inl rfl, .inr (by decide), .inl rfl, .inl rfl, .inl rfl, .inl rfl, .inl rfl⟩, .of_eq rfl rfl rfl rfl⟩
  | pha | php =>
    exact ⟨_, _, rfl, .refl s, busKept_write _ _ _, .refl _ _, .of_listed_sp (by decide) rfl rfl rfl⟩
  | pla =>
    obtain ⟨v, ds, hr, hk⟩ := withPull_cases s
    exact ⟨_, _, hk fun v s => done (setZN v (s.setA v)), .refl s, hr.kept, .of_withZN (by decide) _ _,
      .inr (.inl (by decide)), .inl rfl, .inl rfl, .inr (by decide)⟩
  | plp =>
    obtain ⟨p, ds, hr, hk⟩ := withPull_cases s
    exact ⟨_, _, hk fun p s => done (s.setFlags (unpackStatus p)), .refl s, hr.kept,
      .of_unpack (by decide) _ _, .of_listed_sp (by decide) rfl rfl rfl⟩
  | jsr =>
    obtain ⟨ds, hw, he⟩ := push16_cases (s.pc - 1) s
    exact ⟨_, _, congrArg (fun t : State => done (t.setPc s.ea)) he, .refl s, hw, .refl _ _,
      .of_listed_sp (by decide) rfl rfl rfl⟩
  | rts =>
    obtain ⟨w, ds, hr, hk⟩ := withPull16_cases s
    exact ⟨_, _, hk fun w s => done (s.setPc (w + 1)), .refl s, hr.kept, .refl _ _,
      .of_listed_sp (by decide) rfl rfl rfl⟩
  | brk =>
    obtain ⟨w, ds, hw, he⟩ := interrupt_cases vecIrq ((setB true s).setPc (s.pc + brkSkip s))
    exact ⟨_, _, congrArg done he, .refl s, hw,
      ⟨.inl rfl, .inl rfl, .inl rfl, .inr (by decide), .inl rfl, .inl rfl, .inr ⟨rfl, by decide⟩⟩,
      .of_listed_sp (by decide) rfl rfl rfl⟩
  | rti =>
    obtain ⟨p, w, ds, hr, he⟩ := returnFromInterrupt_cases s
    exact ⟨_, _, congrArg done he, .refl s, hr.kept, .of_unpack (by decide) _ _,
      .of_listed_sp (by decide) rfl rfl rfl⟩

/-! ## Every instruction -/

theorem tag_eq_accumulator {o : Operand} : o.tag = .accumulator ↔ o.mode = .acc := by
  cases o <;> simp [Operand.tag, Operand.mode]

theorem tag_eq_implied {o : Operand} : o.tag = .implied ↔ o.mode = .imp := by
  cases o <;> simp [Operand.tag, Operand.mode]

/-- The stores, INC and DEC have no accumulator mode (30_encoding R112). -/
theorem mode_ne_acc {i : Instr} (h : i.op ∈ [Op.sta, .stx, .sty, .inc, .dec]) : i.operand.mode ≠ .acc := by
  cases i with
  | aslAcc | lsrAcc | rolAcc | rorAcc => simp [Instr.op] at h
  | _ => exact fun e => nomatch e

/-- Every instruction completes in every state, on any bus, within the frame of its mnemonic. -/
theorem exec_frame (i : Instr) (s : State) : ∃ t, exec i s = .next t ∧ OpFrame i.op (i.mode = .acc) s t := by
  obtain ⟨cross, ea, ds, hr, hres⟩ := resolve_cases i.operand ((advance 1 s).setBudget (i.op.ticks i.mode))
  let r := (resolve i.operand ((advance 1 s).setBudget (i.op.ticks i.mode))).2
  have htag : r.tag = i.operand.tag := by simp only [r, hres]
  obtain ⟨u, e, hop, hf⟩ := opRun_frame i.op (s := r)
    (fun ho => by rw [htag]; exact mt tag_eq_implied.mp (operand_mode_ne_imp ho))
    (fun ho => by rw [htag]; exact mt tag_eq_accumulator.mp (mode_ne_acc ho))
  simp only [r, hres, tag_eq_accumulator] at hop hf
  have hrun : exec i s = .next (if cross && e then u else u.setBudget (u.budget - 1)) := by
    rw [exec_eq_runInstr]
    simp only [runInstr, hres, hop]
  have hs : OpFrame i.op (i.mode = .acc) s u := hf.of_start (.refl s) hr.kept rfl rfl rfl rfl rfl
  refine ⟨_, hrun, ?_⟩
  split
  · exact hs
  · exact ⟨hs.host, hs.bus, hs.flags, hs.regs.a, hs.regs.x, hs.regs.y, hs.regs.sp⟩

/-- What the frame says of a run that is given. -/
theorem OpFrame.of_exec {i : Instr} {s t : State} (h : exec i s = .next t) : OpFrame i.op (i.mode = .acc) s t := by
  obtain ⟨u, hu, hf⟩ := exec_frame i s
  rw [h] at hu
  cases hu
  exact hf

/-- Settles O49, by the frame of the mnemonic. -/
theorem onlyTheListedInstructionsChangeAFlag : Obligations.OnlyTheListedInstructionsChangeAFlag := by
  intro s t i h
  obtain ⟨n, v, d, i, z, c, b⟩ := (OpFrame.of_exec h).flags
  exact ⟨n, v, d, i, z, c, b⟩

/-- Settles O50, by the frame of the mnemonic. -/
theorem onlyTheListedInstructionsChangeARegister : Obligations.OnlyTheListedInstructionsChangeARegister := by
  intro s t i h
  obtain ⟨a, x, y, sp⟩ := (OpFrame.of_exec h).regs
  exact ⟨a, x, y, sp⟩

end Sys2Proof.Machine

/-! SUPPORT. EA and the tag of an earlier dispatch are overwritten or never read (10_state R31). -/

namespace Sys2Proof.Machine

/-- The transients of an earlier dispatch. -/
def State.withTransients (s : State) (ea : Addr) (tag : Tag) : State := (s.setEa ea).setTag tag

/-- A mode with an address or an operand byte of its own overwrites EA and the tag. -/
theorem resolve_withTransients {o : Operand} (himp : o.mode ≠ .imp) (hacc : o.mode ≠ .acc) (s : State) (ea : Addr)
    (tag : Tag) : resolve o (s.withTransients ea tag) = resolve o s := by
  cases o with
  | imp => exact absurd rfl himp
  | acc => exact absurd rfl hacc
  | _ => rfl

theorem exec_withTransients {i : Instr} (himp : i.mode ≠ .imp) (hacc : i.mode ≠ .acc) (s : State) (ea : Addr)
    (tag : Tag) : exec i (s.withTransients ea tag) = exec i s := by
  have hr (base : Nat) : resolve i.operand ((advance 1 (s.withTransients ea tag)).setBudget base) =
      resolve i.operand ((advance 1 s).setBudget base) :=
    resolve_withTransients himp hacc ((advance 1 s).setBudget base) ea tag
  simp only [exec_eq_runInstr, runInstr, hr]

theorem interrupt_setEa (vec : Addr) (s : State) (ea : Addr) :
    interrupt vec (s.setEa ea) = (interrupt vec s).setEa ea := rfl

theorem State.setBudget_setEa (s : State) (ea : Addr) (k : Nat) :
    (s.setEa ea).setBudget k = (s.setBudget k).setEa ea := rfl

/-- The state in which the operation of BRK enters its interrupt. -/
def State.brkEntry (s : State) : State :=
  let r := ((advance 1 s).setBudget 7).setTag .implied
  (setB true r).setPc (r.pc + brkSkip r)

theorem exec_brk (s : State) :
    exec .brk s = .next ((interrupt vecIrq s.brkEntry).setBudget ((interrupt vecIrq s.brkEntry).budget - 1)) := rfl

/-- The other instructions overwrite the tag and read no EA: they run the same with EA replaced, and leave it
replaced. -/
theorem exec_withTransients_of_no_ea {i : Instr} (h : i.mode = .imp ∨ i.mode = .acc) (s : State) (ea : Addr)
    (tag : Tag) : ∃ t, exec i s = .next t ∧ exec i (s.withTransients ea tag) = .next (t.setEa ea) := by
  cases i with
  | tax | tay | txa | tya | tsx | txs | inx | iny | dex | dey | aslAcc | lsrAcc | rolAcc | rorAcc | rts | pha | pla
  | php | plp | clc | sec | cli | sei | cld | sed | clv | nop | rti => exact ⟨_, rfl, rfl⟩
  | brk =>
    refine ⟨_, exec_brk s, ?_⟩
    have hentry : (s.withTransients ea tag).brkEntry = s.brkEntry.setEa ea := rfl
    rw [exec_brk, hentry, interrupt_setEa, State.setEa_budget, State.setBudget_setEa]
  | _ => exact absurd h (by simp [Instr.mode, Instr.operand, Operand.mode])

/-- Settles O53: EA and the tag are overwritten by the resolver, or no later operation reads them. -/
theorem transientsAreNotObservable : Obligations.TransientsAreNotObservable := by
  intro i s ea tag
  by_cases h : i.mode = .imp ∨ i.mode = .acc
  · obtain ⟨t, ht, hu⟩ := exec_withTransients_of_no_ea h s ea tag
    exact ⟨t, t.setEa ea, ht, hu, rfl⟩
  · obtain ⟨himp, hacc⟩ := not_or.mp h
    obtain ⟨t, ht, -⟩ := exec_frame i s
    exact ⟨t, t, ht, (exec_withTransients himp hacc s ea tag).trans ht, rfl⟩

end Sys2Proof.Machine

/-! SUPPORT. Every step keeps the invariant (10_state R36, 60_exceptions R260). -/

namespace Sys2Proof.Machine

/-! ## What the invariant depends on -/

/-- A running CPU has no record to be true. -/
theorem recordOk_of_running {s : State} (h : s.halted = none) : s.recordOk = true := by
  simp only [State.recordOk, h]

/-- The record a dispatch leaves at an undefined opcode is true. -/
theorem recordOk_raiseUnknownOpcode {s : State} {opcode : Byte} (hb : s.budget = 0) (hf : formOf opcode = none) :
    (raiseUnknownOpcode opcode s).recordOk = true := by
  simp [State.recordOk, raiseUnknownOpcode, hb, hf]

/-- What a step may do to the devices: the same ones are left, connected or not, and canonical RAM stays so. -/
structure DevicesKept (s t : State) : Prop where
  handles : t.handles.Perm s.handles
  wf : (s.devices ++ s.detached).all Device.wf = true → (t.devices ++ t.detached).all Device.wf = true

theorem DevicesKept.of_busKept {s t : State} (h : BusKept s.devices t.devices) (hd : t.detached = s.detached) :
    DevicesKept s t := by
  refine ⟨.of_eq ?_, fun hw => ?_⟩
  · simp only [State.handles, List.map_append, h.handles, hd]
  · simp only [List.all_append, Bool.and_eq_true, hd] at hw ⊢
    exact ⟨h.wf hw.1, hw.2⟩

theorem DevicesKept.of_perm {s t : State} (h : (t.devices ++ t.detached).Perm (s.devices ++ s.detached)) :
    DevicesKept s t :=
  ⟨h.map _, fun hw => by simpa only [List.all_eq_true, h.mem_iff] using hw⟩

/-- The invariant passes to a state with the same devices and parameters, B clear and a true record. -/
theorem State.Inv.of_kept {s t : State} (h : s.Inv) (hd : DevicesKept s t) (hp : t.params = s.params)
    (hb : t.flags.b = false) (hr : t.recordOk = true) : t.Inv := by
  obtain ⟨hn, hw, -, hc, -⟩ := h
  exact ⟨hd.handles.nodup_iff.mpr hn, hd.wf hw, hb, hp ▸ hc, hr⟩

theorem State.Inv.b_clear {s : State} (h : s.Inv) : s.flags.b = false := by
  obtain ⟨-, -, hb, -⟩ := h
  exact hb

theorem State.Inv.recordOk {s : State} (h : s.Inv) : s.recordOk = true := by
  obtain ⟨-, -, -, -, hr⟩ := h
  exact hr

theorem State.Inv.devices_nodup {s : State} (h : s.Inv) : (s.devices.map Device.handle).Nodup := by
  obtain ⟨hn, -⟩ := h
  rw [State.handles, List.map_append] at hn
  exact hn.of_append_left

theorem State.Inv.detached_nodup {s : State} (h : s.Inv) : (s.detached.map Device.handle).Nodup := by
  obtain ⟨hn, -⟩ := h
  rw [State.handles, List.map_append] at hn
  exact hn.of_append_right

/-- A change of the Bus's devices alone keeps the invariant. -/
theorem State.Inv.setDevices {s : State} (h : s.Inv) {ds : List Device} (hd : BusKept s.devices ds) :
    (s.setDevices ds).Inv :=
  h.of_kept (.of_busKept hd rfl) rfl h.b_clear h.recordOk

/-! ## The CPU's tick -/

/-- An instruction of a running CPU keeps the invariant. -/
theorem State.Inv.exec {s t : State} (h : s.Inv) (hrun : s.halted = none) {i : Instr} (he : exec i s = .next t) :
    t.Inv := by
  obtain ⟨⟨hh, -, hd, -, -, hp⟩, hbus, hf, -⟩ := OpFrame.of_exec he
  have hb : t.flags.b = false := by
    rcases hf.b with hb | ⟨hb, -⟩
    · exact hb.trans h.b_clear
    · exact hb
  exact h.of_kept (.of_busKept hbus hd) hp hb (recordOk_of_running (hh.trans hrun))

/-- A dispatch keeps the invariant, whether it runs an instruction or records an undefined opcode. -/
theorem State.Inv.dispatch {s t : State} (h : s.Inv) (hrun : s.halted = none) (hbudget : s.budget = 0)
    (ht : dispatch s = .next t) : t.Inv := by
  obtain ⟨ds, hr, ⟨i, hi⟩ | ⟨opcode, hf, hu⟩⟩ := dispatch_cases s
  · exact (h.setDevices hr.kept).exec hrun (hi ▸ ht)
  · cases hu.symm.trans ht
    exact (h.setDevices hr.kept).of_kept (.of_busKept (.refl _) rfl) rfl h.b_clear
      (recordOk_raiseUnknownOpcode hbudget hf)

theorem State.Inv.cpuTick {s t : State} (h : s.Inv) (ht : cpuTick s = .next t) : t.Inv := by
  unfold Machine.cpuTick at ht
  split at ht
  · split at ht
    next => cases ht; exact h
    next hrun _ =>
      cases ht
      exact h.of_kept (.of_busKept (.refl _) rfl) rfl h.b_clear (recordOk_of_running hrun)
    next hrun hbudget => exact h.dispatch hrun hbudget ht
  · cases ht

/-! ## The Bus's tick -/

theorem busKept_tick (id : DeviceId) (ds : List Device) :
    BusKept ds (ds.map fun d => if d.handle = id then d.tick else d) := by
  refine ⟨?_, fun hw => ?_⟩
  · rw [List.map_map]
    refine List.map_congr_left fun d _ => ?_
    simp only [Function.comp]
    split <;> simp
  · simp only [List.all_map, List.all_eq_true, Function.comp] at hw ⊢
    intro d hd
    split <;> simp [hw d hd]

theorem State.Inv.tickOne {s t : State} (h : s.Inv) {id : DeviceId} (ht : tickOne id s = .next t) : t.Inv := by
  cases id with
  | cpu => exact h.cpuTick ht
  | dev k =>
    cases ht
    exact h.setDevices (busKept_tick _ _)

theorem State.Inv.tickEach {ids : List DeviceId} {s t : State} (h : s.Inv) (ht : tickEach ids s = .next t) :
    t.Inv := by
  induction ids generalizing s with
  | nil => cases ht; exact h
  | cons id ids ih =>
    simp only [Machine.tickEach] at ht
    split at ht
    next u hu => exact ih (h.tickOne hu) ht
    all_goals cases ht

/-! ## The host's calls -/

/-- `reset()` clears the record and B. -/
theorem State.Inv.cpuReset {s : State} (h : s.Inv) : (cpuReset s).Inv := by
  obtain ⟨w, ds, hr, hk⟩ := withVector_cases vecReset s
  rw [Machine.cpuReset, hk]
  exact h.of_kept (.of_busKept hr.kept rfl) rfl rfl (recordOk_of_running rfl)

/-- An accepted trigger of a running CPU leaves B clear. -/
theorem State.Inv.trigger {s : State} (h : s.Inv) (hrun : s.halted = none) (vec : Addr) (cost : Nat) :
    (trigger vec cost s).Inv := by
  obtain ⟨w, ds, hw, he⟩ := interrupt_cases vec (setB false s)
  rw [Machine.trigger, he]
  exact h.of_kept (.of_busKept hw rfl) rfl rfl (recordOk_of_running hrun)

theorem State.Inv.irq {s : State} (h : s.Inv) : (irq s).Inv := by
  unfold Machine.irq
  split
  next => exact h
  next hc =>
    simp only [Bool.or_eq_true, not_or, Option.not_isSome_iff_eq_none] at hc
    exact h.trigger hc.1 _ _

theorem State.Inv.nmi {s : State} (h : s.Inv) : (nmi s).Inv := by
  unfold Machine.nmi
  split
  next => exact h
  next hc => exact h.trigger (Option.not_isSome_iff_eq_none.mp hc) _ _

theorem State.Inv.afterReset {f : State → State} {s t : State} (hf : (f s).Inv) (ht : afterReset f s = .next t) :
    t.Inv := by
  unfold Machine.afterReset at ht
  split at ht
  · cases ht; exact hf
  · cases ht

/-- A device found under a handle is a member and has the handle. -/
theorem findDevice_eq_some {ds : List Device} {id : DeviceId} {d : Device} (h : findDevice id ds = some d) :
    d ∈ ds ∧ d.handle = id :=
  ⟨List.mem_of_find?_eq_some h, by simpa using List.find?_some h⟩

/-- In a list without a handle twice, dropping a found device and adding it again only moves it. -/
theorem cons_dropDevice_perm {ds : List Device} (hn : (ds.map Device.handle).Nodup) {id : DeviceId} {d : Device}
    (h : findDevice id ds = some d) : (d :: dropDevice id ds).Perm ds := by
  obtain ⟨hd, rfl⟩ := findDevice_eq_some h
  have herase : dropDevice d.handle ds = ds.erase d := by
    rw [dropDevice_of_mem hn hd, hn.of_map.erase_eq_filter]
    exact List.filter_congr fun e _ => by simp only [bne, beq_eq_decide, decide_not]
  rw [herase]
  exact (List.perm_cons_erase hd).symm

/-- `connect` moves a device from the others to the Bus. -/
theorem State.Inv.connect {s t : State} (h : s.Inv) {id : DeviceId} (ht : connect id s = .next t) : t.Inv := by
  unfold Machine.connect at ht
  split at ht
  next => cases ht
  next =>
    split at ht
    next => cases ht
    next d hd =>
      cases ht
      refine h.of_kept (.of_perm ?_) rfl h.b_clear h.recordOk
      exact List.perm_middle.symm.trans ((cons_dropDevice_perm h.detached_nodup hd).append_left s.devices)

/-- `disconnect` moves a device from the Bus to the others. -/
theorem State.Inv.disconnect {s : State} (h : s.Inv) (id : DeviceId) : (disconnect id s).Inv := by
  unfold Machine.disconnect
  split
  next => exact h.of_kept (.of_busKept (.refl _) rfl) rfl h.b_clear h.recordOk
  next d hd =>
    refine h.of_kept (.of_perm ?_) rfl h.b_clear h.recordOk
    exact List.perm_middle.trans ((cons_dropDevice_perm h.devices_nodup hd).append_right s.detached)

theorem State.Inv.hostRead {s : State} (h : s.Inv) (addr : Addr) : (hostRead addr s).Inv :=
  h.of_kept (.of_busKept (busKept_read addr s.devices) rfl) rfl h.b_clear h.recordOk

theorem State.Inv.hostWrite {s : State} (h : s.Inv) (addr : Addr) (v : Byte) : (hostWrite addr v s).Inv :=
  h.of_kept (.of_busKept (busKept_write addr v s.devices) rfl) rfl h.b_clear h.recordOk

/-- Every operation of the host keeps the invariant. -/
theorem State.Inv.hostCall {s t : State} (h : s.Inv) {call : HostCall} (ht : hostCall call s = .next t) : t.Inv := by
  cases call with
  | tick => exact h.tickEach ht
  | irq => exact .afterReset h.irq ht
  | nmi => exact .afterReset h.nmi ht
  | connect id => exact h.connect ht
  | reset => cases ht; exact h.cpuReset
  | disconnect id => cases ht; exact h.disconnect id
  | read addr => cases ht; exact h.hostRead addr
  | write addr v => cases ht; exact h.hostWrite addr v

/-! ## The obligations -/

/-- With no call ahead, a step is one `Bus.tick()`. -/
theorem step_tick {s : State} (h : s.calls = []) : step s = busTick s := by
  simp only [step, advanceMachine, h]

/-- Settles O57: the invariant is kept by every kind of tick and by every call of the host. -/
theorem stepKeepsTheInvariant : Obligations.StepKeepsTheInvariant := by
  intro s t h ht
  cases hc : s.calls with
  | nil => exact h.tickEach ((step_tick hc).symm.trans ht)
  | cons call rest =>
    have hs : (s.setCalls rest).Inv := h.of_kept (.of_busKept (.refl _) rfl) rfl h.b_clear h.recordOk
    exact hs.hostCall ((step_call hc).symm.trans ht)

/-- Settles O56: the platform of log 1 has two devices and an empty memory, whose reset vector reads 0. -/
theorem resetStateHoldsTheInvariant : Obligations.ResetStateHoldsTheInvariant := by
  have hinv : State.reset.Inv := ⟨by decide, by decide, rfl, by decide, rfl⟩
  exact ⟨hinv, rfl⟩

end Sys2Proof.Machine

/-! SUPPORT. The machine before its first `reset()` (10_state R34, R38). -/

namespace Sys2Proof.Machine

/-- Ticks that reach a CPU that was never reset are refused, whatever devices tick before it. -/
theorem tickEach_neverReset {ids : List DeviceId} (hc : .cpu ∈ ids) {s : State} (h : s.everReset = false) :
    tickEach ids s = .refused .neverReset := by
  induction ids generalizing s with
  | nil => cases hc
  | cons id ids ih =>
    cases id with
    | cpu => simp [tickEach, tickOne, cpuTick, h]
    | dev k =>
      have hmem : DeviceId.cpu ∈ ids := by simpa using hc
      simpa only [tickEach, tickOne] using ih hmem (s := deviceTick (.dev k) s) h

theorem busTick_neverReset {s : State} (hc : Device.cpu ∈ s.devices) (h : s.everReset = false) :
    busTick s = .refused .neverReset :=
  tickEach_neverReset (List.mem_map_of_mem (f := Device.handle) hc) h

theorem afterReset_neverReset (f : State → State) {s : State} (h : s.everReset = false) :
    afterReset f s = .refused .neverReset := by
  simp [afterReset, h]

/-- Settles O10: the refusal stands in front of the trigger, and the ticks before the CPU's leave it standing. -/
theorem neverResetCpuIsRefused : Obligations.NeverResetCpuIsRefused := by
  rintro s rest h (hc | hc | ⟨hc | hc, hcpu⟩)
  · rw [step_call hc]; exact afterReset_neverReset irq h
  · rw [step_call hc]; exact afterReset_neverReset nmi h
  · rw [step_tick hc]; exact busTick_neverReset hcpu h
  · rw [step_call hc]; exact busTick_neverReset (s := s.setCalls rest) hcpu h

/-- Settles O59: with no device on the Bus nothing ticks and nobody answers, so both bytes of the reset vector
read 0xFF. -/
theorem constructedBusIsEmpty : Obligations.ConstructedBusIsEmpty := by
  intro u built rest s
  refine ⟨rfl, rfl, rfl, fun hc => ?_, fun hc => ?_, fun addr hc => ?_, fun addr v hc => ?_, fun id hc => ?_,
    fun hc => neverResetCpuIsRefused s rest rfl (hc.imp_right .inl), fun hc => ?_⟩
  · exact step_tick (s := s) hc
  · exact step_call (s := s) hc
  · exact step_call (s := s) hc
  · exact step_call (s := s) hc
  · exact step_call (s := s) hc
  · have hpc : word16 openBus openBus = 0xFFFF := by decide
    exact ⟨_, step_call (s := s) hc, rfl, hpc, rfl⟩

end Sys2Proof.Machine

/-! SUPPORT. The Bus's list of devices: the order of ticks (20_memory R55), `connect` and `disconnect` (R53, R54),
and the search for the first responder (R56, R57). -/

namespace Sys2Proof.Machine

/-! ## One `Bus.tick()` -/

theorem Device.handle_eq_cpu {d : Device} : d.handle = .cpu ↔ d = .cpu := by
  cases d <;> simp [Device.handle]

theorem cpu_mem_handles {ds : List Device} : DeviceId.cpu ∈ ds.map Device.handle ↔ Device.cpu ∈ ds := by
  simp only [List.mem_map, Device.handle_eq_cpu, exists_eq_right]

/-- The devices with these handles tick, the others stay. -/
def ticked (ids : List DeviceId) (ds : List Device) : List Device :=
  ds.map fun d => if d.handle ∈ ids then d.tick else d

theorem ticked_of_subset {ids : List DeviceId} {ds : List Device} (h : ∀ d ∈ ds, d.handle ∈ ids) :
    ticked ids ds = ds.map Device.tick :=
  List.map_congr_left fun d hd => if_pos (h d hd)

theorem ticked_of_disjoint {ids : List DeviceId} {ds : List Device} (h : ∀ d ∈ ds, d.handle ∉ ids) :
    ticked ids ds = ds :=
  (List.map_congr_left fun d hd => if_neg (h d hd)).trans (List.map_id ds)

/-- In a list without a handle twice, the ticks of a front part leave the rest alone. -/
theorem ticked_front {pre rest : List Device} (hn : ((pre ++ rest).map Device.handle).Nodup) :
    ticked (pre.map Device.handle) (pre ++ rest) = pre.map Device.tick ++ rest := by
  rw [List.map_append, List.nodup_append] at hn
  obtain ⟨-, -, hdisjoint⟩ := hn
  have hpre : ticked (pre.map Device.handle) pre = pre.map Device.tick :=
    ticked_of_subset fun d hd => List.mem_map_of_mem hd
  have hrest : ticked (pre.map Device.handle) rest = rest :=
    ticked_of_disjoint fun d hd hin => hdisjoint _ hin _ (List.mem_map_of_mem hd) rfl
  rw [ticked, List.map_append]
  exact congrArg₂ (· ++ ·) hpre hrest

/-- The ticks of devices other than the CPU. -/
theorem tickEach_eq_ticked {ids : List DeviceId} (hc : .cpu ∉ ids) (hn : ids.Nodup) (s : State) :
    tickEach ids s = .next (s.setDevices (ticked ids s.devices)) :=
  tickEach_devices hc hn s

/-- Without the CPU a `Bus.tick()` ticks every device and changes nothing else. -/
theorem busTick_of_no_cpu {s : State} (hn : (s.devices.map Device.handle).Nodup) (hc : Device.cpu ∉ s.devices) :
    busTick s = .next (s.setDevices (s.devices.map Device.tick)) := by
  rw [busTick, tickEach_eq_ticked (mt cpu_mem_handles.mp hc) hn,
    ticked_of_subset fun d hd => List.mem_map_of_mem hd]

/-- With the CPU a `Bus.tick()` ticks the devices ahead of it, then the CPU, then the devices behind it. -/
theorem busTick_around_cpu {s : State} {pre post : List Device} (hn : (s.devices.map Device.handle).Nodup)
    (hs : s.devices = pre ++ .cpu :: post) :
    busTick s =
      match cpuTick (s.setDevices (pre.map Device.tick ++ .cpu :: post)) with
      | .next t => .next (t.setDevices (ticked (post.map Device.handle) t.devices))
      | .fault f => .fault f
      | .refused e => .refused e := by
  rw [hs] at hn
  have hfront : ticked (pre.map Device.handle) s.devices = pre.map Device.tick ++ .cpu :: post := by
    rw [hs]; exact ticked_front hn
  simp only [List.map_append, List.map_cons, List.nodup_append, List.nodup_cons] at hn
  obtain ⟨hpre, ⟨hcpu_post, hpost⟩, hdisjoint⟩ := hn
  have hcpu_pre : DeviceId.cpu ∉ pre.map Device.handle := fun h => hdisjoint _ h _ (List.mem_cons_self ..) rfl
  have hids : s.devices.map Device.handle = pre.map Device.handle ++ .cpu :: post.map Device.handle := by
    rw [hs, List.map_append, List.map_cons, Device.handle]
  rw [busTick, hids, tickEach_append, tickEach_eq_ticked hcpu_pre hpre, hfront]
  simp only [tickEach, tickOne]
  cases cpuTick (s.setDevices (pre.map Device.tick ++ .cpu :: post)) with
  | next t => exact tickEach_eq_ticked hcpu_post hpost t
  | fault f => rfl
  | refused e => rfl

/-- Settles O6: both kinds of step are a `Bus.tick()` of the state with the call used up. -/
theorem busTickRunsDevicesInOrder : Obligations.BusTickRunsDevicesInOrder := by
  intro s r h hn
  obtain ⟨hstep, hdev⟩ : step s = busTick r ∧ r.devices = s.devices := by
    rcases h with ⟨hc, rfl⟩ | ⟨rest, hc, rfl⟩
    · exact ⟨step_tick hc, rfl⟩
    · exact ⟨step_call hc, rfl⟩
  rw [hstep]
  rw [← hdev] at hn ⊢
  exact ⟨busTick_of_no_cpu hn, fun pre post hs => busTick_around_cpu hn hs⟩

/-! ## `connect` and `disconnect` -/

/-- In a list without a handle twice, dropping a device's handle leaves what stands around it. -/
theorem dropDevice_middle {pre post : List Device} {d : Device}
    (hn : ((pre ++ d :: post).map Device.handle).Nodup) : dropDevice d.handle (pre ++ d :: post) = pre ++ post := by
  simp only [List.map_append, List.map_cons, List.nodup_append, List.nodup_cons] at hn
  obtain ⟨-, ⟨hpost, -⟩, hpre⟩ := hn
  have keep_pre : dropDevice d.handle pre = pre := List.filter_eq_self.mpr fun e he =>
    decide_eq_true (hpre _ (List.mem_map_of_mem he) _ (List.mem_cons_self ..))
  have keep_post : dropDevice d.handle post = post := List.filter_eq_self.mpr fun e he =>
    decide_eq_true fun heq => hpost (heq ▸ List.mem_map_of_mem he)
  have hsplit : dropDevice d.handle (pre ++ d :: post) = dropDevice d.handle pre ++ dropDevice d.handle post := by
    simp [dropDevice]
  rw [hsplit, keep_pre, keep_post]

/-- Connecting a connected device is refused. -/
theorem connect_of_connected {s : State} {id : DeviceId} (h : ∃ d ∈ s.devices, d.handle = id) :
    connect id s = .refused .deviceAlreadyConnected := by
  obtain ⟨d, hd, hid⟩ := h
  obtain ⟨e, he⟩ : ∃ e, findDevice id s.devices = some e :=
    Option.isSome_iff_exists.mp (List.find?_isSome.mpr ⟨d, hd, decide_eq_true hid⟩)
  simp only [connect, he]

/-- Connecting a device that does not exist is refused. -/
theorem connect_of_absent {s : State} {id : DeviceId} (h : ∀ d ∈ s.devices ++ s.detached, d.handle ≠ id) :
    connect id s = .refused .noSuchDevice := by
  have hdevices : findDevice id s.devices = none :=
    findDevice_eq_none fun d hd => h d (List.mem_append_left _ hd)
  have hdetached : findDevice id s.detached = none :=
    findDevice_eq_none fun d hd => h d (List.mem_append_right _ hd)
  simp only [connect, hdevices, hdetached]

/-- Settles O38: the three cases are where the handle is found. -/
theorem connectPutsTheDeviceFirst : Obligations.ConnectPutsTheDeviceFirst := by
  intro s id rest hc
  have hstep : step s = connect id (s.setCalls rest) := step_call hc
  rw [hstep]
  refine ⟨connect_of_connected (s := s.setCalls rest), ?_, connect_of_absent (s := s.setCalls rest)⟩
  rintro d hn hd rfl
  refine ⟨_, connect_of_mem_detached (s := s.setCalls rest) hn hd, rfl, ?_, rfl⟩
  have hdetached : (s.detached.map Device.handle).Nodup := by
    rw [State.handles, List.map_append] at hn
    exact hn.of_append_right
  have hperm := cons_dropDevice_perm hdetached (findDevice_of_mem hdetached hd)
  exact (List.perm_cons d).mp (hperm.trans (List.perm_cons_erase hd))

/-- Settles O39: the device found is the one with the handle, and dropping it keeps the rest in order. -/
theorem disconnectRemovesTheDevice : Obligations.DisconnectRemovesTheDevice := by
  intro s id rest hc
  have hstep : step s = .next (disconnect id (s.setCalls rest)) := step_call hc
  rw [hstep]
  refine ⟨fun habsent => ?_, ?_⟩
  · have hnone : findDevice id (s.setCalls rest).devices = none := findDevice_eq_none habsent
    simp only [disconnect, hnone]
  · rintro pre d post hs rfl hn
    have hfound : findDevice d.handle (s.setCalls rest).devices = some d :=
      findDevice_of_mem hn (by rw [hs]; exact List.mem_append_right _ (List.mem_cons_self ..))
    have hdrop : dropDevice d.handle (s.setCalls rest).devices = pre ++ post := by
      rw [State.setCalls_devices, hs]
      exact dropDevice_middle (hs ▸ hn)
    simp only [disconnect, hfound, hdrop, State.setCalls_detached]

/-! ## The first responder -/

/-- Devices that decline a read are asked one after the other, and the search goes on behind them. -/
theorem busRead_append_of_declined {addr : Addr} {pre : List Device} (h : ∀ e ∈ pre, (e.read addr).1 = none)
    (ds : List Device) :
    busRead addr (pre ++ ds) = ((busRead addr ds).1, pre.map (fun e => (e.read addr).2) ++ (busRead addr ds).2) := by
  induction pre with
  | nil => rfl
  | cons e pre ih =>
    obtain ⟨he, hpre⟩ := List.forall_mem_cons.mp h
    simp only [List.cons_append, busRead, he, ih hpre, List.map_cons]

/-- Devices that decline a write are asked one after the other, and the search goes on behind them. -/
theorem busWrite_append_of_declined {addr : Addr} {v : Byte} {pre : List Device}
    (h : ∀ e ∈ pre, (e.write addr v).1 = false) (ds : List Device) :
    busWrite addr v (pre ++ ds) =
      ((busWrite addr v ds).1, pre.map (fun e => (e.write addr v).2) ++ (busWrite addr v ds).2) := by
  induction pre with
  | nil => rfl
  | cons e pre ih =>
    obtain ⟨he, hpre⟩ := List.forall_mem_cons.mp h
    simp only [List.cons_append, busWrite, he, ih hpre, List.map_cons, Bool.false_eq_true, if_false]

theorem busRead_cons_of_answer {addr : Addr} {d : Device} {v : Byte} (h : (d.read addr).1 = some v)
    (ds : List Device) : busRead addr (d :: ds) = (some v, (d.read addr).2 :: ds) := by
  simp only [busRead, h]

theorem busWrite_cons_of_accept {addr : Addr} {v : Byte} {d : Device} (h : (d.write addr v).1 = true)
    (ds : List Device) : busWrite addr v (d :: ds) = (true, (d.write addr v).2 :: ds) := by
  simp only [busWrite, h, if_true]

theorem busRead_of_all_decline {addr : Addr} {ds : List Device} (h : ∀ e ∈ ds, (e.read addr).1 = none) :
    busRead addr ds = (none, ds.map fun e => (e.read addr).2) := by
  simpa [busRead] using busRead_append_of_declined h []

theorem busWrite_of_all_decline {addr : Addr} {v : Byte} {ds : List Device}
    (h : ∀ e ∈ ds, (e.write addr v).1 = false) :
    busWrite addr v ds = (false, ds.map fun e => (e.write addr v).2) := by
  simpa [busWrite] using busWrite_append_of_declined h []

/-- Settles O40: the search passes the devices that decline and ends at the first that does not. -/
theorem firstResponderAnswersARead : Obligations.FirstResponderAnswersARead := by
  refine ⟨fun addr v pre post d hpre hd => ?_, fun addr ds h => busRead_of_all_decline h,
    fun addr v pre post d hpre hd => ?_, fun addr v ds h => busWrite_of_all_decline h⟩
  · rw [busRead_append_of_declined hpre, busRead_cons_of_answer hd]
  · rw [busWrite_append_of_declined hpre, busWrite_cons_of_accept hd]

/-- Settles O41: the step is the host's call, and its reply is the Bus's answer. -/
theorem hostReadAndWriteReply : Obligations.HostReadAndWriteReply := by
  intro s addr v rest
  refine ⟨fun hc => ?_, fun hc => step_call hc⟩
  have hstep : step s = .next (hostRead addr (s.setCalls rest)) := step_call hc
  rw [hstep, hostRead, State.setCalls_devices]
  cases (busRead addr s.devices).1 <;> rfl

/-- A described device that declines a write is unchanged. -/
theorem Device.write_of_decline {d : Device} (hq : d.isQuiet) {addr : Addr} {v : Byte}
    (h : (d.write addr v).1 = false) : (d.write addr v).2 = d := by
  cases d with
  | external id e => cases hq
  | ram id r =>
    by_cases hc : r.claims addr
    · cases hm : r.onWrite with
      | stores | ignores => simp [Device.write, Ram.write, hc, hm] at h
      | declines => simp [Device.write, Ram.write, hc, hm]
    · simp [Device.write, hc]
  | _ => rfl

/-- Settles O42: nobody answers, and described devices that decline are unchanged. -/
theorem openBusReadsAsAllOnes : Obligations.OpenBusReadsAsAllOnes := by
  intro s addr v hq
  refine ⟨fun hcell => ?_, fun hdecline => ?_⟩
  · have hbyte : s.peek addr = 0xFF := by
      simp only [State.peek, memRead, busRead_none hq hcell]
      rfl
    rw [memRead_of_quiet hq, hbyte]
  · have hsame : s.devices.map (fun d => (d.write addr v).2) = s.devices :=
      (List.map_congr_left fun d hd => Device.write_of_decline (List.all_eq_true.mp hq d hd) (hdecline d hd)).trans
        (List.map_id _)
    rw [memWrite, busWrite_of_all_decline hdecline, hsame]
    rfl

end Sys2Proof.Machine

/-! SUPPORT. The bytes of a RAM (20_memory R69) and the canonical form they are held in (log 2). -/

namespace Sys2Proof.Machine

/-- A listed cell of a canonical memory: its index and byte are in range, and the rest is canonical behind it. -/
theorem Memory.wfFrom_cons_iff {lo hi k : Nat} {v : Byte} {m : Memory} :
    Memory.wfFrom lo hi ((k, v) :: m) = true ↔
      lo ≤ k ∧ k < hi ∧ v ≠ unlistedByte ∧ Memory.wfFrom (k + 1) hi m = true := by
  simp only [Memory.wfFrom, Bool.and_eq_true, decide_eq_true_eq, and_assoc]

/-- A canonical memory whose every byte is that of an unlisted index lists nothing. -/
theorem Memory.eq_nil_of_get {lo hi : Nat} {m : Memory} (h : Memory.wfFrom lo hi m)
    (hget : ∀ j, Memory.get m j = unlistedByte) : m = [] := by
  cases m with
  | nil => rfl
  | cons p m =>
    obtain ⟨k, v⟩ := p
    obtain ⟨-, -, hv, -⟩ := Memory.wfFrom_cons_iff.mp h
    exact absurd (by simpa [Memory.get] using hget k) hv

/-- Of two canonical memories with the same bytes neither lists an index before the other does. -/
theorem Memory.first_le_of_get {lo hi k k' : Nat} {v v' : Byte} {m m' : Memory}
    (h : Memory.wfFrom lo hi ((k, v) :: m)) (h' : Memory.wfFrom lo hi ((k', v') :: m'))
    (hget : ∀ j, Memory.get ((k, v) :: m) j = Memory.get ((k', v') :: m') j) : k' ≤ k := by
  obtain ⟨-, -, hv, -⟩ := Memory.wfFrom_cons_iff.mp h
  obtain ⟨-, hk', hv', hm'⟩ := Memory.wfFrom_cons_iff.mp h'
  by_contra hlt
  have hbelow : Memory.get ((k', v') :: m') k = unlistedByte :=
    Memory.get_of_lt (Memory.wfFrom_cons_iff.mpr ⟨Nat.le_refl k', hk', hv', hm'⟩) (by omega)
  rw [← hget k] at hbelow
  exact hv (by simpa [Memory.get] using hbelow)

/-- Behind a common first cell, canonical memories with the same bytes have the same bytes. -/
theorem Memory.get_tail {hi k : Nat} {v v' : Byte} {m m' : Memory} (h : Memory.wfFrom (k + 1) hi m)
    (h' : Memory.wfFrom (k + 1) hi m')
    (hget : ∀ j, Memory.get ((k, v) :: m) j = Memory.get ((k, v') :: m') j) (j : Nat) :
    Memory.get m j = Memory.get m' j := by
  by_cases hj : k = j
  · subst hj
    rw [Memory.get_of_lt h (Nat.lt_succ_self k), Memory.get_of_lt h' (Nat.lt_succ_self k)]
  · simpa [Memory.get, hj] using hget j

/-- Canonical memories with the same bytes are the same data. -/
theorem Memory.ext_of_wfFrom {lo hi : Nat} {m m' : Memory} (h : Memory.wfFrom lo hi m) (h' : Memory.wfFrom lo hi m')
    (hget : ∀ j, Memory.get m j = Memory.get m' j) : m = m' := by
  induction m generalizing lo m' with
  | nil => exact (Memory.eq_nil_of_get h' fun j => (hget j).symm).symm
  | cons p m ih =>
    obtain ⟨k, v⟩ := p
    cases m' with
    | nil => exact Memory.eq_nil_of_get h hget
    | cons p' m' =>
      obtain ⟨k', v'⟩ := p'
      obtain rfl : k' = k := Nat.le_antisymm (Memory.first_le_of_get h h' hget)
        (Memory.first_le_of_get h' h fun j => (hget j).symm)
      obtain rfl : v = v' := by simpa [Memory.get] using hget k'
      obtain ⟨-, -, -, hm⟩ := Memory.wfFrom_cons_iff.mp h
      obtain ⟨-, -, -, hm'⟩ := Memory.wfFrom_cons_iff.mp h'
      rw [ih hm hm' (Memory.get_tail hm hm' hget)]

/-- Settles O44: a write goes to its place among the rising indexes, and the first cell of a canonical memory is
fixed by its bytes. -/
theorem canonicalMemoriesAreEqual : Obligations.CanonicalMemoriesAreEqual :=
  ⟨fun _ i _ v hi h => ⟨Memory.wfFrom_set h v (Nat.zero_le i) hi, Memory.get_set h i v⟩,
    fun _ _ _ h h' hget => Memory.ext_of_wfFrom h h' hget⟩

theorem Ram.write_of_stores {r : Ram} (h : r.onWrite = .stores) (addr : Addr) (v : Byte) :
    r.write addr v = (true, { r with cells := Memory.set r.cells (r.index addr) v }) := by
  simp only [Ram.write, h]

/-- Settles O43: inside the window the write is `Ram.write`, which keeps the window and the index formula; outside
no access reaches the RAM. -/
theorem ramKeepsItsBytes : Obligations.RamKeepsItsBytes := by
  intro id r addr other v hw hm
  refine ⟨fun ha ho => ⟨(r.write addr v).2, ?_, Ram.wf_write hw addr v, ?_, ?_⟩, fun ha => ?_⟩
  · simp [Device.write, ha, Ram.write_of_stores hm]
  · rw [Ram.write_of_stores hm]
  · simp [Device.read, ho, Ram.get_write hw, hm]
  · simp [Device.read, Device.write, ha]

end Sys2Proof.Machine

/-! SUPPORT. Every instruction completes (20_memory R73, 60_exceptions R264): its budget, its PC and the bytes it
leaves alone, on any bus. -/

namespace Sys2Proof.Machine

/-! ## The operation of a mnemonic -/

/-- From `s` to `u`, a mnemonic takes no cycle off, moves PC only if it transfers control, and changes a byte of a
RAM only if it stores one: a shift stores none in accumulator mode. -/
structure OpFlow (o : Op) (accMode : Prop) (s u : State) : Prop where
  budget : s.budget ≤ u.budget
  pc : u.pc = s.pc ∨ o.isBranch = true ∨ o ∈ [.jmp, .jsr, .rts, .brk, .rti]
  bytes : ramContents u.devices = ramContents s.devices ∨ o.isStore = true ∨ (o.isModify = true ∧ ¬accMode) ∨
    o ∈ [.pha, .php, .jsr, .brk]

/-- An operation that only reads, with PC and the budget kept. -/
theorem OpFlow.of_read {o : Op} {accMode : Prop} {s u : State} (hb : u.budget = s.budget) (hpc : u.pc = s.pc)
    (hr : OnlyRead s.devices u.devices) : OpFlow o accMode s u :=
  ⟨hb.ge, .inl hpc, .inl hr.bytes⟩

/-- An operation that completes has loaded some byte, and only read the Bus for it. -/
theorem withLoad_next {s : State} {k : Byte → State → OpResult} {p : State × Bool}
    (h : withLoad 0 s k = .next p) :
    ∃ (v : Byte) (ds : List Device), OnlyRead s.devices ds ∧ k v (s.setDevices ds) = .next p := by
  by_cases ht : s.tag = .implied
  · simp [withLoad, ht] at h
  · obtain ⟨v, ds, hr, hk⟩ := withLoad_cases ht
    exact ⟨v, ds, hr, (hk k).symm.trans h⟩

/-- An operation that completes has stored its byte: in A, with no access to the Bus, or on the Bus. -/
theorem withStore_next {s : State} {v : Byte} {k : State → OpResult} {p : State × Bool}
    (h : withStore 0 v s k = .next p) :
    ∃ (a : Byte) (ds : List Device), (s.tag = .accumulator → ds = s.devices) ∧
      k ((s.setDevices ds).setA a) = .next p := by
  by_cases ht : s.tag = .implied
  · simp [withStore, ht] at h
  · obtain ⟨ds, -, hacc, hk⟩ := withStore_cases ht v
    exact ⟨_, ds, hacc, (hk k).symm.trans h⟩

/-- A read-modify-write operation writes its operand and some flags. -/
theorem modify_flow {o : Op} (ho : o.isModify = true) {f : Byte → State → Byte} {g : Byte → State → State → Flags}
    {s u : State} {e : Bool}
    (h : (withLoad 0 s fun m s => withStore 0 (f m s) s fun t => done (t.setFlags (g m s t))) = .next (u, e)) :
    OpFlow o (s.tag = .accumulator) s u := by
  obtain ⟨m, ds, hr, h⟩ := withLoad_next h
  obtain ⟨a, es, hacc, h⟩ := withStore_next h
  cases h
  refine ⟨le_rfl, .inl rfl, ?_⟩
  by_cases ht : s.tag = .accumulator
  · exact .inl ((congrArg ramContents (hacc ht)).trans hr.bytes)
  · exact .inr (.inr (.inl ⟨ho, ht⟩))

/-- A shift or rotate is one. -/
theorem shiftWith_flow {o : Op} (ho : o.isModify = true) {parts : Bool → Byte → Byte × Bool} {s u : State} {e : Bool}
    (h : shiftWith parts s = .next (u, e)) : OpFlow o (s.tag = .accumulator) s u :=
  modify_flow ho (f := fun m s => (parts s.flags.c m).1) (g := fun m s _ => shiftFlags (parts s.flags.c m) s.flags) h

/-- A branch moves PC and adds its cycles. -/
theorem branch_flow {o : Op} (ho : o.isBranch = true) {accMode : Prop} {cond : Bool} {s u : State} {e : Bool}
    (h : branch cond s = .next (u, e)) : OpFlow o accMode s u := by
  obtain ⟨d, ds, hr, h⟩ := withLoad_next h
  cases cond with
  | false => cases h; exact .of_read rfl rfl hr
  | true => cases h; exact ⟨Nat.le_add_right_of_le (Nat.le_succ _), .inr (.inl ho), .inl hr.bytes⟩

/-- The operation of every mnemonic, where it completes. -/
theorem opRun_flow {o : Op} {s u : State} {e : Bool} (h : opRun o s = .next (u, e)) :
    OpFlow o (s.tag = .accumulator) s u := by
  unfold opRun at h
  cases o with
  | lda | ldx | ldy | adc | sbc | and | ora | eor | cmp | cpx | cpy | bit =>
    obtain ⟨m, ds, hr, h⟩ := withLoad_next h
    cases h
    exact .of_read rfl rfl hr
  | asl | lsr | rol | ror => exact shiftWith_flow rfl h
  | inc | dec => exact modify_flow rfl h
  | sta | stx | sty =>
    obtain ⟨a, ds, -, h⟩ := withStore_next h
    cases h
    exact ⟨le_rfl, .inl rfl, .inr (.inl rfl)⟩
  | bcc | bcs | beq | bne | bmi | bpl | bvc | bvs => exact branch_flow rfl h
  | tax | tay | txa | tya | tsx | txs | inx | iny | dex | dey | clc | sec | cli | sei | cld | sed | clv | nop =>
    cases h
    exact .of_read rfl rfl (.refl _)
  | jmp => cases h; exact ⟨le_rfl, .inr (.inr (by decide)), .inl rfl⟩
  | pha | php => cases h; exact ⟨le_rfl, .inl rfl, .inr (.inr (.inr (by decide)))⟩
  | pla | plp =>
    obtain ⟨v, ds, hr, hk⟩ := withPull_cases s
    cases (hk _).symm.trans h
    exact .of_read rfl rfl hr
  | jsr => cases h; exact ⟨le_rfl, .inr (.inr (by decide)), .inr (.inr (.inr (by decide)))⟩
  | brk =>
    obtain ⟨w, ds, -, he⟩ := interrupt_cases vecIrq ((setB true s).setPc (s.pc + brkSkip s))
    cases (congrArg done he).symm.trans h
    exact ⟨le_rfl, .inr (.inr (by decide)), .inr (.inr (.inr (by decide)))⟩
  | rts =>
    obtain ⟨w, ds, hr, hk⟩ := withPull16_cases s
    cases (hk fun w s => done (s.setPc (w + 1))).symm.trans h
    exact ⟨le_rfl, .inr (.inr (by decide)), .inl hr.bytes⟩
  | rti =>
    obtain ⟨p, w, ds, hr, he⟩ := returnFromInterrupt_cases s
    cases (congrArg done he).symm.trans h
    exact ⟨le_rfl, .inr (.inr (by decide)), .inl hr.bytes⟩

/-! ## The dispatch around it -/

/-- Every mode of every mnemonic takes two ticks or more (70 R321). -/
theorem two_le_ticks (o : Op) (m : Mode) : 2 ≤ o.ticks m := by
  unfold Op.ticks
  repeat' split
  all_goals decide

/-- PC past the opcode and then past the operand bytes. -/
theorem pc_past_operand (s : State) (o : Operand) :
    s.pc + BitVec.ofNat 16 1 + BitVec.ofNat 16 (o.mode.length - 1) = s.pcPlus o.mode.length := by
  have hlen : 1 + (o.mode.length - 1) = o.mode.length := by
    cases o <;> rfl
  rw [BitVec.add_assoc, ← BitVec.ofNat_add, hlen, pcPlus_eq]

/-- A dispatch is its operation, run from a state with PC past the instruction, the base budget, the tag of its
mode and a Bus that was only read, and then at most one cycle taken off. -/
theorem exec_next {i : Instr} {s t : State} (h : exec i s = .next t) :
    ∃ (r u : State) (e : Bool), opRun i.op r = .next (u, e) ∧ r.pc = s.pcPlus i.length ∧
      r.budget = i.op.ticks i.mode ∧ (r.tag = .accumulator ↔ i.mode = .acc) ∧ OnlyRead s.devices r.devices ∧
      (t = u ∨ t = u.setBudget (u.budget - 1)) := by
  obtain ⟨cross, ea, ds, hr, hres⟩ := resolve_cases i.operand ((advance 1 s).setBudget (i.op.ticks i.mode))
  rw [exec_eq_runInstr] at h
  simp only [runInstr, hres] at h
  split at h
  next p hop =>
    refine ⟨_, p.1, p.2, hop, pc_past_operand s i.operand, rfl, tag_eq_accumulator, hr, ?_⟩
    cases h
    exact ite_eq_or_eq ..
  all_goals cases h

/-- What an instruction leaves of the budget, of PC and of the bytes. -/
theorem exec_flow {i : Instr} {s t : State} (h : exec i s = .next t) :
    1 ≤ t.budget ∧ (t.pc = s.pcPlus i.length ∨ i.op.isBranch = true ∨ i.op ∈ [.jmp, .jsr, .rts, .brk, .rti]) ∧
      (ramContents t.devices = ramContents s.devices ∨ i.op.isStore = true ∨
        (i.op.isModify = true ∧ ¬i.mode = .acc) ∨ i.op ∈ [.pha, .php, .jsr, .brk]) := by
  obtain ⟨r, u, e, hop, hpc, hb, htag, hr, ht⟩ := exec_next h
  obtain ⟨hbudget, hu, hbytes⟩ := opRun_flow hop
  rw [hpc] at hu
  rw [hr.bytes, htag] at hbytes
  have hticks := two_le_ticks i.op i.mode
  rcases ht with rfl | rfl
  · exact ⟨by omega, hu, hbytes⟩
  · exact ⟨by rw [State.setBudget_budget]; omega, hu, hbytes⟩

/-- Settles O51: the frame of the mnemonic gives completion, the host's side and the devices; its flow gives the
budget, PC and the bytes. -/
theorem everyInstructionCompletes : Obligations.EveryInstructionCompletes := by
  intro i s
  obtain ⟨t, ht, hf⟩ := exec_frame i s
  obtain ⟨hbudget, hpc, hbytes⟩ := exec_flow ht
  refine ⟨t, ht, hf.host, hf.bus.handles, hbudget, fun hnb hnt => ?_, fun hns hacc hnw => ?_⟩
  · rcases hpc with hpc | hb | hin
    · exact hpc
    · exact absurd (hnb.symm.trans hb) Bool.false_ne_true
    · exact absurd hin hnt
  · rcases hbytes with hbytes | hs | ⟨hmod, hm⟩ | hin
    · exact hbytes
    · exact absurd (hns.symm.trans hs) Bool.false_ne_true
    · exact absurd (hacc hmod) hm
    · exact absurd hin hnw

end Sys2Proof.Machine

/-! SUPPORT. The decoder and the encoder undo each other (30_encoding R90, R93, R110), and the decoder's table lists
every opcode but the undefined ones (R118). -/

namespace Sys2Proof

/-! ## From an instruction to its bytes and back -/

/-- The form of an instruction rebuilds it from its own operand bytes and leaves the bytes after them. -/
theorem form_decode_operand_bytes (i : Instr) (opcode : Byte) (rest : List Byte) :
    i.form.decode opcode (i.operand.bytes ++ rest) = .ok i rest := by
  cases i <;> simp only [Instr.form, Instr.operand, Operand.bytes, Form.decode, List.nil_append, List.cons_append,
    word16_hiByte_loByte]

/-- Settles O1: the opcode leads to the instruction's own form, and that form rebuilds the instruction. -/
theorem decodeInvertsEncode : Obligations.DecodeInvertsEncode := by
  intro i rest
  simp only [encode, List.cons_append, decode, formOf_opcode, form_decode_operand_bytes]

/-- Settles O4: each word is the encoding of its instruction. -/
theorem wordsOfTheMapDecode : Obligations.WordsOfTheMapDecode :=
  ⟨decodeInvertsEncode (.ldaImm 0x80) [], decodeInvertsEncode (.ldxZpy 0xF0) [],
    decodeInvertsEncode (.staAbx 0x12F0) [], decodeInvertsEncode (.adcIzy 0x20) [],
    decodeInvertsEncode (.bitAbs 0x1234) [], decodeInvertsEncode .rorAcc [], decodeInvertsEncode (.jmpInd 0x02FF) [],
    decodeInvertsEncode (.jsr 0x9000) [], decodeInvertsEncode (.bne 0xFA) [], decodeInvertsEncode .brk [0xEE],
    decodeInvertsEncode .nop []⟩

/-! ## From bytes to an instruction and back -/

/-- The instruction a form builds from a byte or from a word, whichever it takes. -/
def Form.instr (b : Byte) (w : Addr) : Form → Instr
  | .plain i => i
  | .byte g => g b
  | .word g => g w

/-- The operand bytes of that instruction. -/
def Form.operandBytes (b : Byte) (w : Addr) : Form → List Byte
  | .plain _ => []
  | .byte _ => [b]
  | .word _ => [loByte w, hiByte w]

/-- What a form decodes it has built from a byte or a word, whose operand bytes stood first. -/
theorem Form.decode_eq_ok {opcode : Byte} {f : Form} {bytes rest : List Byte} {i : Instr}
    (h : f.decode opcode bytes = .ok i rest) : ∃ b w, i = f.instr b w ∧ bytes = f.operandBytes b w ++ rest := by
  match f, bytes with
  | .plain _, _ => cases h; exact ⟨0, 0, rfl, rfl⟩
  | .byte _, b :: _ => cases h; exact ⟨b, 0, rfl, rfl⟩
  | .word _, lo :: hi :: _ =>
    cases h
    exact ⟨0, word16 hi lo, rfl, by simp [operandBytes, loByte_word16, hiByte_word16]⟩
  | .byte _, [] | .word _, [] | .word _, [_] => cases h

/-- A form that is found stands in the table, in a row of its opcode. -/
theorem mem_of_lookupForm {k : Nat} {f : Form} {rows : List (Nat × Form)} (h : lookupForm k rows = some f) :
    (k, f) ∈ rows := by
  induction rows with
  | nil => cases h
  | cons row rows ih =>
    simp only [lookupForm] at h
    split at h
    next hk => cases h; cases hk; exact List.mem_cons_self
    next => exact List.mem_cons_of_mem _ (ih h)

/-- Row by row, the table builds instructions that are encoded by the opcode of the row and the operand bytes. -/
theorem opcodeTable_encode (b : Byte) (w : Addr) :
    opcodeTable.map (fun row => encode (row.2.instr b w)) =
      opcodeTable.map fun row => BitVec.ofNat 8 row.1 :: row.2.operandBytes b w := by
  -- `exact` keeps Lean from trying the equation as a rule of `dsimp`, which overruns the recursion depth
  exact rfl

/-- What the form of an opcode builds is encoded by that opcode and the operand bytes. -/
theorem encode_instr_of_formOf {opcode : Byte} {f : Form} (h : formOf opcode = some f) (b : Byte) (w : Addr) :
    encode (f.instr b w) = opcode :: f.operandBytes b w := by
  simpa using List.map_inj_left.mp (opcodeTable_encode b w) _ (mem_of_lookupForm h)

/-- Settles O2: the bytes led by an opcode are those its form encodes. -/
theorem encodeInvertsDecode : Obligations.EncodeInvertsDecode := by
  intro bytes i rest h
  cases bytes with
  | nil => cases h
  | cons opcode tail =>
    simp only [decode] at h
    split at h
    next => cases h
    next f hf =>
      obtain ⟨b, w, rfl, rfl⟩ := Form.decode_eq_ok h
      rw [encode_instr_of_formOf hf, List.cons_append]

/-! ## The undefined opcodes -/

/-- A form never answers that its opcode is unknown. -/
theorem Form.decode_ne_unknownOpcode (f : Form) (opcode unknown : Byte) (bytes : List Byte) :
    f.decode opcode bytes ≠ .rejected (.unknownOpcode unknown) := by
  match f, bytes with
  | .plain _, _ | .byte _, _ :: _ | .word _, _ :: _ :: _ | .byte _, [] | .word _, [] | .word _, [_] => nofun

/-- An opcode is rejected as unknown where the table has no form for it. -/
theorem decode_unknownOpcode_iff (opcode : Byte) (rest : List Byte) :
    decode (opcode :: rest) = .rejected (.unknownOpcode opcode) ↔ formOf opcode = none := by
  simp only [decode]
  cases formOf opcode with
  | none => simp
  | some f => simp [Form.decode_ne_unknownOpcode]

/-- The table has no form for an opcode that heads none of its rows. -/
theorem lookupForm_eq_none_iff {k : Nat} {rows : List (Nat × Form)} :
    lookupForm k rows = none ↔ k ∉ rows.map Prod.fst := by
  induction rows with
  | nil => simp [lookupForm]
  | cons row rows ih =>
    simp only [lookupForm, List.map_cons, List.mem_cons, not_or]
    split
    next hk => simp [hk]
    next hk => simp [Ne.symm hk, ih]

/-- Settles O3: an opcode is unknown where the table has no row for it, which is checked for each of the 256 values. -/
theorem undefinedOpcodesAreRejected : Obligations.UndefinedOpcodesAreRejected := by
  intro opcode rest
  rw [decode_unknownOpcode_iff, formOf, lookupForm_eq_none_iff]
  revert opcode
  decide

end Sys2Proof

/-! SUPPORT. A pushed word is pulled back (40_execution_engine R147, R148), the status byte carries the flags (R150 to
R152), and a dispatch overwrites the budget it finds (R137). -/

namespace Sys2Proof.Machine

/-! ## The stack -/

/-- One address more is backed: a store at it is read there, and in a cell that none of the others has. -/
theorem State.backs_cons {s : State} {addr : Addr} {addrs : List Addr} :
    s.backs (addr :: addrs) = true ↔
      s.reaches addr addr = true ∧ (∀ b ∈ addrs, readCell b s.devices ≠ readCell addr s.devices) ∧
        s.backs addrs = true := by
  simp only [State.backs, List.all_cons, List.map_cons, List.nodup_cons, List.mem_map, not_exists, not_and,
    Bool.and_eq_true, decide_eq_true_eq]
  tauto

theorem State.backs_perm {s : State} {addrs others : List Addr} (h : addrs.Perm others) :
    s.backs addrs = s.backs others := by
  simp only [State.backs, h.all_eq, (h.map _).nodup_iff]

/-- A store at a backed address is not read at an address with another cell. -/
theorem State.reaches_eq_false {s : State} {target addr : Addr} (ht : s.reaches target target = true)
    (h : readCell addr s.devices ≠ readCell target s.devices) : s.reaches target addr = false := by
  simp only [State.reaches, Bool.and_eq_true, decide_eq_true_eq] at ht
  obtain ⟨-, hcell⟩ := ht
  simp [State.reaches, ← hcell, h]

/-- Bytes stored at backed addresses are all read back. -/
theorem State.peekAfter_of_backs {s : State} {stores : List (Addr × Byte)} (h : s.backs (stores.map Prod.fst) = true)
    {addr : Addr} {v : Byte} (hm : (addr, v) ∈ stores) : s.peekAfter stores addr = v := by
  induction stores with
  | nil => cases hm
  | cons store earlier ih =>
    obtain ⟨hself, hother, hearlier⟩ := State.backs_cons.mp h
    rcases List.mem_cons.mp hm with rfl | hm
    · exact if_pos hself
    · have hmiss : s.reaches store.1 addr = false :=
        State.reaches_eq_false hself (hother addr (List.mem_map_of_mem hm))
      rw [State.peekAfter, hmiss]
      exact ih hearlier hm

/-- Settles O46: the two pulls read at the addresses of the two pushes, low byte first. -/
theorem push16ThenPull16RoundTrips : Obligations.Push16ThenPull16RoundTrips := by
  intro s w hplain hbacks
  have haddr0 : stackAddr s.sp = s.stackDown 0 := by
    rw [← stackAddr_down s 0 (by decide)]; simp
  have haddr1 : stackAddr (s.sp - 1) = s.stackDown 1 := stackAddr_down s 1 (by decide)
  have hsp1 : s.sp - 1 - 1 + 1 = s.sp - 1 := BitVec.sub_add_cancel ..
  have hsp0 : s.sp - 1 + 1 = s.sp := BitVec.sub_add_cancel ..
  obtain ⟨ds, hpush, hstored⟩ := (Stored.refl hplain).push16 w
  have hpull := (hstored.congr (u := (s.setDevices ds).setSp (s.sp - 1 - 1)) rfl).withPull16
    fun v t => (v, t.sp, t.a, t.x, t.y, t.pc, t.flags, t.budget)
  simp only [haddr0, haddr1, State.setSp_sp, hsp1, hsp0] at hpull
  rw [State.backs_perm (.swap ..)] at hbacks
  have hread {addr : Addr} {v : Byte} (hm : (addr, v) ∈ [(s.stackDown 1, loByte w), (s.stackDown 0, hiByte w)]) :
      s.peekAfter [(s.stackDown 1, loByte w), (s.stackDown 0, hiByte w)] addr = v :=
    State.peekAfter_of_backs hbacks hm
  rw [hread (.head _), hread (.tail _ (.head _)), word16_hiByte_loByte] at hpull
  rw [hpush]
  exact hpull

/-! ## The status byte -/

/-- A flag at place `k` is bit `k` and no other. -/
theorem statusBit_getLsbD (b : Bool) (k : Nat) {j : Nat} (hj : j < 8) :
    (statusBit b k).getLsbD j = (b && decide (j = k)) := by
  cases b with
  | false => simp [statusBit]
  | true =>
    have hpow : statusBit true k = BitVec.twoPow 8 k := rfl
    rw [hpow, BitVec.getLsbD_twoPow, Bool.true_and, ← Bool.decide_and, decide_eq_decide]
    omega

theorem statusNat_lt (f : Flags) : statusNat f < 256 := by
  have := Bool.toNat_le f.n
  have := Bool.toNat_le f.v
  have := Bool.toNat_le f.b
  have := Bool.toNat_le f.d
  have := Bool.toNat_le f.i
  have := Bool.toNat_le f.z
  have := Bool.toNat_le f.c
  unfold statusNat
  omega

theorem packStatus_toNat (f : Flags) : (packStatus f).toNat = statusNat f := by
  rw [packStatus_eq, statusByte, BitVec.toNat_ofNat]
  exact Nat.mod_eq_of_lt (statusNat_lt f)

/-- Each flag but B is unpacked from the bit it was packed into. -/
theorem unpackStatus_packStatus (f : Flags) : unpackStatus (packStatus f) = { f with b := false } := by
  simp [unpackStatus, packStatus, statusBit_getLsbD, -BitVec.getLsbD_eq_getElem]

/-- Each bit but 5 and 4 is packed from the flag it was unpacked into. -/
theorem packStatus_unpackStatus (p : Byte) : packStatus (unpackStatus p) = (p ||| 0x20) &&& 0xEF := by
  apply BitVec.eq_of_getLsbD_eq
  intro j hj
  interval_cases j <;> simp [packStatus, unpackStatus, statusBit_getLsbD, -BitVec.getLsbD_eq_getElem]

/-- Settles O45, by the weights of the flags and by the bits. -/
theorem statusByteRoundTrip : Obligations.StatusByteRoundTrip :=
  ⟨fun f => ⟨packStatus_toNat f, unpackStatus_packStatus f⟩, packStatus_unpackStatus⟩

/-! ## The budget before a dispatch -/

/-- The frame of a dispatch sets the budget before anything reads it. -/
theorem runInstr_setBudget (base : Nat) (o : Operand) (op : State → OpResult) (s : State) (k : Nat) :
    runInstr base o op (s.setBudget k) = runInstr base o op s := rfl

/-- Settles O54: every instruction runs in that frame. -/
theorem budgetIsTimingOnly : Obligations.BudgetIsTimingOnly := by
  intro i s k
  rw [exec_eq_runInstr, exec_eq_runInstr, runInstr_setBudget]

end Sys2Proof.Machine

/-! SUPPORT. What the Bus's tick is where only the CPU ticks: a waiting tick (40_execution_engine R130), or the
instruction at PC (R131, R132), which leaves every device with the tick it had. -/

namespace Sys2Proof.Machine

/-! ## The devices that tick -/

/-- Whether a device has a tick of its own (20_memory R52): the CPU's is the machine's. -/
def Device.hasOwnTick : Device → Bool
  | .cpu => false
  | .ram _ _ => false
  | .counter _ _ => true
  | .external _ e => e.canTick

theorem Device.tick_of_not_hasOwnTick {d : Device} (h : d.hasOwnTick = false) : d.tick = d := by
  cases d with
  | cpu | ram => rfl
  | counter => cases h
  | external id e => exact if_neg (Bool.eq_false_iff.mp h)

/-- Which devices of the Bus have a tick of their own, in order. -/
def State.tickers (s : State) : List Bool := s.devices.map Device.hasOwnTick

theorem State.true_notMem_tickers_of_onlyCpuTicks {s : State} (h : s.onlyCpuTicks) : true ∉ s.tickers := by
  simp only [State.onlyCpuTicks, Bool.and_eq_true, List.all_eq_true] at h
  obtain ⟨-, hall⟩ := h
  intro hm
  obtain ⟨d, hd, ht⟩ := List.mem_map.mp hm
  have := hall d hd
  cases d <;> simp_all [Device.hasOwnTick]

theorem State.tick_eq_of_tickers {s : State} (h : true ∉ s.tickers) : ∀ d ∈ s.devices, d.tick = d := by
  intro d hd
  refine Device.tick_of_not_hasOwnTick (Bool.eq_false_iff.mpr fun ht => h ?_)
  exact ht ▸ List.mem_map_of_mem hd

/-! ## No access changes which devices tick -/

@[simp] theorem Device.read_hasOwnTick (addr : Addr) (d : Device) : (d.read addr).2.hasOwnTick = d.hasOwnTick := by
  cases d with
  | external id e => simp only [Device.read]; split <;> rfl
  | _ => rfl

@[simp] theorem Device.write_hasOwnTick (addr : Addr) (v : Byte) (d : Device) :
    (d.write addr v).2.hasOwnTick = d.hasOwnTick := by
  cases d with
  | external id e => simp only [Device.write]; split <;> rfl
  | ram id r => simp only [Device.write]; split <;> rfl
  | _ => rfl

@[simp] theorem memWrite_tickers (addr : Addr) (v : Byte) (s : State) : (memWrite addr v s).tickers = s.tickers :=
  busWrite_map _ _ _ _ fun d _ => d.write_hasOwnTick addr v

@[simp] theorem push_tickers (v : Byte) (s : State) : (push v s).tickers = s.tickers := memWrite_tickers ..

@[simp] theorem push16_tickers (w : Addr) (s : State) : (push16 w s).tickers = s.tickers := by
  rw [push16, push_tickers, push_tickers]

@[simp] theorem interruptFrame_tickers (s : State) : (interruptFrame s).tickers = s.tickers :=
  (push_tickers ..).trans (push16_tickers s.pc s)

section
variable {α : Type} {P : α → Prop} {s : State} {l : List Bool} (hs : s.tickers = l)
include hs

/-- What holds of every way to go on with the same tickers holds after a read. -/
theorem withRead_tickers {addr : Addr} {k : Byte → State → α} (hk : ∀ v (t : State), t.tickers = l → P (k v t)) :
    P (withRead addr s k) :=
  hk _ _ ((busRead_map _ _ _ fun d _ => d.read_hasOwnTick addr).trans hs)

theorem withVector_tickers {vec : Addr} {k : Addr → State → α} (hk : ∀ w (t : State), t.tickers = l → P (k w t)) :
    P (withVector vec s k) :=
  withRead_tickers hs fun _ _ ht => withRead_tickers ht fun _ _ hu => hk _ _ hu

theorem withPointer_tickers {p : Addr} {k : Addr → State → α} (hk : ∀ w (t : State), t.tickers = l → P (k w t)) :
    P (withPointer p s k) :=
  withRead_tickers hs fun _ _ ht => withRead_tickers ht fun _ _ hu => hk _ _ hu

theorem withPull_tickers {k : Byte → State → α} (hk : ∀ v (t : State), t.tickers = l → P (k v t)) : P (withPull s k) :=
  withRead_tickers (s := s.setSp (s.sp + 1)) hs hk

theorem withPull16_tickers {k : Addr → State → α} (hk : ∀ w (t : State), t.tickers = l → P (k w t)) :
    P (withPull16 s k) :=
  withPull_tickers hs fun _ _ ht => withPull_tickers ht fun _ _ hu => hk _ _ hu

end

theorem interrupt_tickers (vec : Addr) (s : State) : (interrupt vec s).tickers = s.tickers :=
  withVector_tickers (P := fun t : State => t.tickers = s.tickers) (interruptFrame_tickers s) fun _ _ ht => ht

theorem returnFromInterrupt_tickers (s : State) : (returnFromInterrupt s).tickers = s.tickers :=
  withPull_tickers (P := fun t : State => t.tickers = s.tickers) rfl fun p t ht =>
    withPull16_tickers (P := fun t : State => t.tickers = s.tickers) (s := t.setFlags (unpackStatus p)) ht
      fun _ _ hu => hu

theorem resolve_tickers (o : Operand) (s : State) : (resolve o s).2.tickers = s.tickers := by
  have hptr {p : Addr} {t : State} {k : Addr → State → Bool × State} (ht : t.tickers = s.tickers)
      (hk : ∀ w (t : State), t.tickers = s.tickers → (k w t).2.tickers = s.tickers) :
      (withPointer p t k).2.tickers = s.tickers :=
    withPointer_tickers (P := fun r : Bool × State => r.2.tickers = s.tickers) ht hk
  cases o with
  | ind | izx | izy => exact hptr rfl fun _ _ ht => ht
  | _ => rfl

/-! ## No instruction changes which devices tick -/

/-- An operation that completes leaves these tickers. -/
def LeavesTickers (l : List Bool) (r : OpResult) : Prop := ∀ p, r = .next p → p.1.tickers = l

theorem LeavesTickers.next {l : List Bool} {t : State} {e : Bool} (h : t.tickers = l) :
    LeavesTickers l (.next (t, e)) := by
  intro p hp
  cases hp
  exact h

theorem LeavesTickers.refused {l : List Bool} {e : Refusal} : LeavesTickers l (.refused e) :=
  fun _ h => nomatch h

theorem LeavesTickers.withLoad {l : List Bool} {s : State} (hs : s.tickers = l) {off : Byte}
    {k : Byte → State → OpResult} (hk : ∀ v t, t.tickers = l → LeavesTickers l (k v t)) :
    LeavesTickers l (withLoad off s k) := by
  unfold Machine.withLoad
  split
  · split
    · exact hk _ _ hs
    · exact .refused
  · split
    · exact hk _ _ hs
    · exact withRead_tickers hs hk
  · exact withRead_tickers hs hk
  · exact .refused

theorem LeavesTickers.withStore {l : List Bool} {s : State} (hs : s.tickers = l) {off v : Byte}
    {k : State → OpResult} (hk : ∀ t, t.tickers = l → LeavesTickers l (k t)) :
    LeavesTickers l (withStore off v s k) := by
  have hw (addr : Addr) : (memWrite addr v s).tickers = l := (memWrite_tickers addr v s).trans hs
  unfold Machine.withStore
  split
  · split
    · exact hk _ hs
    · exact .refused
  · exact hk _ (hw _)
  · exact hk _ (hw _)
  · exact .refused

theorem shiftWith_tickers (parts : Bool → Byte → Byte × Bool) (s : State) :
    LeavesTickers s.tickers (shiftWith parts s) :=
  .withLoad rfl fun _ _ ht => .withStore ht fun _ hu => .next hu

theorem branch_tickers (cond : Bool) (s : State) : LeavesTickers s.tickers (branch cond s) := by
  refine .withLoad rfl fun _ _ ht => ?_
  split
  · exact .next ht
  · exact .next ht

theorem opRun_tickers (o : Op) (s : State) : LeavesTickers s.tickers (opRun o s) := by
  unfold opRun
  cases o with
  | lda | ldx | ldy | adc | sbc | and | ora | eor | cmp | cpx | cpy | bit =>
    exact .withLoad rfl fun _ _ ht => .next ht
  | asl | lsr | rol | ror => exact shiftWith_tickers _ s
  | inc | dec => exact .withLoad rfl fun _ _ ht => .withStore ht fun _ hu => .next hu
  | sta | stx | sty => exact .withStore rfl fun _ ht => .next ht
  | bcc | bcs | beq | bne | bmi | bpl | bvc | bvs => exact branch_tickers _ s
  | tax | tay | txa | tya | tsx | txs | inx | iny | dex | dey | clc | sec | cli | sei | cld | sed | clv | nop | jmp =>
    exact .next rfl
  | pha | php => exact .next (push_tickers _ s)
  | jsr => exact .next (push16_tickers _ s)
  | pla | plp => exact withPull_tickers rfl fun _ _ ht => .next ht
  | rts => exact withPull16_tickers rfl fun _ _ ht => .next ht
  | brk => exact .next (interrupt_tickers _ _)
  | rti => exact .next (returnFromInterrupt_tickers s)

theorem exec_tickers {i : Instr} {s t : State} (h : exec i s = .next t) : t.tickers = s.tickers := by
  have hres := resolve_tickers i.operand ((advance 1 s).setBudget (i.op.ticks i.mode))
  rw [exec_eq_runInstr] at h
  simp only [runInstr] at h
  split at h
  next p hop =>
    have hp : p.1.tickers = s.tickers := (opRun_tickers _ _ p hop).trans hres
    cases h
    split
    · exact hp
    · exact hp
  all_goals cases h

/-! ## The obligations -/

theorem cpuTick_waiting {s : State} {k : Nat} (he : s.everReset) (hr : s.running) (hb : s.budget = k + 1) :
    cpuTick s = .next (s.setBudget k) := by
  rw [State.running, Option.isNone_iff_eq_none] at hr
  simp [cpuTick, he, hr, hb]

/-- With no call ahead, where only the CPU ticks and its tick leaves the tickers, a step is that tick. -/
theorem step_of_onlyCpuTicks {s : State} (hc : s.calls = []) (ho : s.onlyCpuTicks)
    (hk : ∀ t, cpuTick s = .next t → t.tickers = s.tickers) : step s = cpuTick s := by
  rw [step_tick hc]
  refine busTick_of_onlyCpuTicks ho fun t ht => State.tick_eq_of_tickers ?_
  rw [hk t ht]
  exact State.true_notMem_tickers_of_onlyCpuTicks ho

/-- Settles O5: the step is the CPU's tick, a dispatch, and its instruction leaves no device with a tick. -/
theorem stepRunsTheDecodedInstruction : Obligations.StepRunsTheDecodedInstruction := by
  intro s i rest hat hquiet honly hdecode
  have htick : cpuTick s = exec i s := (cpuTick_atDispatch hat).trans (dispatch_of_decode hquiet hdecode)
  simp only [State.atDispatch, Bool.and_eq_true, List.isEmpty_iff] at hat
  obtain ⟨-, hcalls⟩ := hat
  rw [step_of_onlyCpuTicks hcalls honly fun t ht => exec_tickers (htick.symm.trans ht), htick]

/-- Settles O7: the waiting tick, and the step that is one. -/
theorem waitingTickOnlyDecrementsTheBudget : Obligations.WaitingTickOnlyDecrementsTheBudget := by
  intro s k hreset hrunning hbudget
  have htick := cpuTick_waiting hreset hrunning hbudget
  refine ⟨htick, fun hcalls honly => (step_of_onlyCpuTicks hcalls honly fun t ht => ?_).trans htick⟩
  cases htick.symm.trans ht
  rfl

end Sys2Proof.Machine

/-! SUPPORT. The opcodes of a mnemonic, read off the opcode table (30_encoding R112). -/

namespace Sys2Proof

/-- The mode a form gives its instruction, with the opcode of its row. -/
def opcodeEntry (row : Nat × Form) : Mode × Nat := ((row.2.instr 0 0).mode, row.1)

/-- The modes and opcodes of a mnemonic, in the order of the opcode table. -/
def Op.opcodes (o : Op) : List (Mode × Nat) :=
  (opcodeTable.filter fun row => decide ((row.2.instr 0 0).op = o)).map opcodeEntry

/-- The operand bytes change neither the mnemonic nor the mode. -/
theorem Instr.form_instr (i : Instr) (b : Byte) (w : Addr) :
    (i.form.instr b w).op = i.op ∧ (i.form.instr b w).mode = i.mode := by
  cases i <;> exact ⟨rfl, rfl⟩

/-- Each instruction has its row in the opcode table. -/
theorem mem_opcodeTable (i : Instr) : (i.opcode.toNat, i.form) ∈ opcodeTable :=
  mem_of_lookupForm (formOf_opcode i)

/-- What a row of the opcode table builds has the opcode of the row. -/
theorem opcode_instr_of_mem_opcodeTable {row : Nat × Form} (h : row ∈ opcodeTable) (b : Byte) (w : Addr) :
    (row.2.instr b w).opcode.toNat = row.1 := by
  have hmap : opcodeTable.map (fun row => (row.2.instr b w).opcode.toNat) = opcodeTable.map Prod.fst := rfl
  exact List.map_inj_left.mp hmap row h

/-- Each mnemonic has exactly the opcodes of its rows. -/
theorem Op.hasOpcodes (o : Op) : o.HasOpcodes o.opcodes := by
  constructor
  · rintro i rfl
    obtain ⟨hop, hmode⟩ := i.form_instr 0 0
    refine List.mem_map.mpr ⟨_, List.mem_filter.mpr ⟨mem_opcodeTable i, decide_eq_true hop⟩, ?_⟩
    rw [opcodeEntry, hmode]
  · intro p hp
    obtain ⟨row, hrow, rfl⟩ := List.mem_map.mp hp
    obtain ⟨htable, hop⟩ := List.mem_filter.mp hrow
    exact ⟨_, of_decide_eq_true hop, by rw [opcodeEntry, opcode_instr_of_mem_opcodeTable htable]⟩

/-- A mnemonic with one mode has it in each of its instructions. -/
theorem Instr.mode_eq_of_modes {i : Instr} {m : Mode} (h : i.op.modes = [m]) : i.mode = m := by
  obtain ⟨hwf, -⟩ := encodedForm i
  simpa [Instr.wellFormed, Op.hasMode, h] using hwf

end Sys2Proof

/-! SUPPORT. Loads, stores and register transfers (41 R170 to R181): the effect of an operation that changes
registers and flags only, and the one Bus write of a store. -/

namespace Sys2Proof.Machine

/-! ## Operations on registers and flags -/

/-- `SetZN` on the machine, in numbers. -/
theorem setZN_eq (v : Byte) (s : State) : setZN v s = s.setFlags (s.flags.ofResult v) := by
  rw [setZN, Flags.withZN_eq_ofResult]

theorem crosses_of_mode_imp {s : State} {o : Operand} (h : o.mode = .imp) : o.crosses s = false := by
  cases o with
  | imp => rfl
  | _ => cases h

/-- An operation that changes registers and flags only has no further effect. -/
theorem does_of_registers {s : State} {i : Instr} {o : Op} (hi : i.op = o)
    (h : s.plain = true ∨ readsPointer i.operand = false) {a x y sp : Byte} {f : Flags} {eligible : Bool}
    (hop : opRun o (s.resolved i.operand (i.op.ticks i.mode)) =
      .next ({ s.resolved i.operand (i.op.ticks i.mode) with a := a, x := x, y := y, sp := sp, flags := f }, eligible))
    (hel : i.operand.crosses s = true → eligible = i.op.isRead) :
    i.Does s { i.baseEffect s with a := a, x := x, y := y, sp := sp, flags := f } := by
  subst hi
  exact does_of_run h hop hel (.none rfl) (sameHostSide_resolved s i.operand (i.op.ticks i.mode)) rfl rfl rfl rfl rfl
    rfl rfl rfl rfl

/-- The same for a mnemonic in Implied mode, on any bus. -/
theorem does_of_implied {s : State} {i : Instr} {o : Op} (hi : i.op = o) (hm : o.modes = [.imp])
    {a x y sp : Byte} {f : Flags}
    (hop : opRun o (s.resolved i.operand (i.op.ticks i.mode)) =
      done { s.resolved i.operand (i.op.ticks i.mode) with a := a, x := x, y := y, sp := sp, flags := f }) :
    i.Does s { i.baseEffect s with a := a, x := x, y := y, sp := sp, flags := f } := by
  have himp : i.operand.mode = .imp := Instr.mode_eq_of_modes (hi ▸ hm)
  refine does_of_registers hi (.inr ?_) hop fun hc => ?_
  · rw [readsPointer, himp]; rfl
  · rw [crosses_of_mode_imp himp] at hc; cases hc

/-- The same for a read operation, which goes on with its operand byte. -/
theorem does_of_load {s : State} {i : Instr} {o : Op} (hi : i.op = o) (hr : o.isRead = true) (h : s.plain)
    {g : Byte → State → State} {a x y sp : Byte} {f : Flags}
    (hop : opRun o = fun s => withLoad 0 s fun m s => doneEligible (g m s))
    (hg : g (i.operand.value s) (s.resolved i.operand (i.op.ticks i.mode)) =
      { s.resolved i.operand (i.op.ticks i.mode) with a := a, x := x, y := y, sp := sp, flags := f }) :
    i.Does s { i.baseEffect s with a := a, x := x, y := y, sp := sp, flags := f } := by
  have hread : i.op.isRead = true := hi ▸ hr
  refine does_of_registers hi (.inl h) (eligible := true) ?_ fun _ => hread.symm
  rw [hop]
  exact (withLoad_resolved h _ (operand_mode_ne_imp (.inl hread)) _).trans (congrArg doneEligible hg)

/-- Settles O12: the operation goes on with the operand byte and sets one register from it. -/
theorem loadsWriteTheirRegister : Obligations.LoadsWriteTheirRegister :=
  ⟨fun _ _ h hi => does_of_load hi rfl h (g := fun v s => setZN v (s.setA v)) rfl (setZN_eq _ _),
    fun _ _ h hi => does_of_load hi rfl h (g := fun v s => setZN v (s.setX v)) rfl (setZN_eq _ _),
    fun _ _ h hi => does_of_load hi rfl h (g := fun v s => setZN v (s.setY v)) rfl (setZN_eq _ _),
    Op.lda.hasOpcodes, Op.ldx.hasOpcodes, Op.ldy.hasOpcodes⟩

/-- Settles O14: each transfer is in Implied mode, and all but TXS end in `SetZN`. -/
theorem transfersCopyARegister : Obligations.TransfersCopyARegister :=
  ⟨fun _ _ hi => does_of_implied hi rfl (congrArg done (setZN_eq _ _)),
    fun _ _ hi => does_of_implied hi rfl (congrArg done (setZN_eq _ _)),
    fun _ _ hi => does_of_implied hi rfl (congrArg done (setZN_eq _ _)),
    fun _ _ hi => does_of_implied hi rfl (congrArg done (setZN_eq _ _)),
    fun _ _ hi => does_of_implied hi rfl (congrArg done (setZN_eq _ _)),
    fun _ _ hi => does_of_implied hi rfl rfl,
    Op.tax.hasOpcodes, Op.tay.hasOpcodes, Op.txa.hasOpcodes, Op.tya.hasOpcodes, Op.tsx.hasOpcodes, Op.txs.hasOpcodes⟩

/-! ## The stores -/

/-- The register a store writes to its operand (41 R173 to R175). -/
def storedRegister (o : Op) (s : State) : Byte :=
  match o with
  | .stx => s.x
  | .sty => s.y
  | _ => s.a

/-- No store has an accumulator mode (30_encoding R112). -/
theorem mode_ne_acc_of_isStore {i : Instr} (h : i.op.isStore = true) : i.operand.mode ≠ .acc := by
  have hop : i.op ∈ [Op.sta, .stx, .sty] := List.contains_iff_mem.mp h
  exact mode_ne_acc (show i.op ∈ [Op.sta, .stx, .sty] ++ [.inc, .dec] from List.mem_append_left _ hop)

theorem isRead_of_isStore {o : Op} (h : o.isStore = true) : o.isRead = false := by
  cases o with
  | sta | stx | sty => rfl
  | _ => cases h

/-- The operation of a store is `Store(0, register)` alone. -/
theorem opRun_of_isStore {o : Op} (h : o.isStore = true) (s : State) :
    opRun o s = withStore 0 (storedRegister o s) s done := by
  cases o with
  | sta | stx | sty => rfl
  | _ => cases h

/-- Outside Implied and Accumulator mode, `Store(0, v)` is one Bus write at EA. -/
theorem withStore_eq_memWrite {s : State} (himp : s.tag ≠ .implied) (hacc : s.tag ≠ .accumulator) (v : Byte)
    (k : State → OpResult) : withStore 0 v s k = k (memWrite s.ea v s) := by
  unfold withStore
  split
  next ht => exact absurd ht hacc
  next => rw [offAddr_zero]
  next => rw [offAddr_zero]
  next ht => exact absurd ht himp

/-- A store, run with the tag of its mode, is one Bus write of its register at EA, on any bus. -/
theorem opRun_store {i : Instr} (h : i.op.isStore = true) {s : State} (ht : s.tag = i.operand.tag) :
    opRun i.op s = done (memWrite s.ea (storedRegister i.op s) s) := by
  have himp : s.tag ≠ .implied := by
    rw [ht]; exact mt tag_eq_implied.mp (operand_mode_ne_imp (.inr (.inl h)))
  have hacc : s.tag ≠ .accumulator := by
    rw [ht]; exact mt tag_eq_accumulator.mp (mode_ne_acc_of_isStore h)
  rw [opRun_of_isStore h, withStore_eq_memWrite himp hacc]

/-- On a described bus a store has the one effect of its byte at the effective address. -/
theorem does_of_store {s : State} {i : Instr} {o : Op} (hi : i.op = o) (ho : o.isStore = true) (h : s.plain) :
    i.Does s { i.baseEffect s with stores := [(i.operand.target s, storedRegister o s)] } := by
  subst hi
  have hst := (resolved_stored h (i.op.ticks i.mode) i.operand).write (i.operand.target s) (storedRegister i.op s)
  exact does_of_run (.inl h) (opRun_store ho rfl) (fun _ => (isRead_of_isStore ho).symm) hst.toOnlyStored
    (sameHostSide_resolved s i.operand (i.op.ticks i.mode)) rfl rfl rfl rfl rfl rfl rfl rfl rfl

/-- Settles O13: the operation of each is one store of its register. -/
theorem storesWriteOneByte : Obligations.StoresWriteOneByte :=
  ⟨fun _ _ h hi => does_of_store hi rfl h, fun _ _ h hi => does_of_store hi rfl h,
    fun _ _ h hi => does_of_store hi rfl h, Op.sta.hasOpcodes, Op.stx.hasOpcodes, Op.sty.hasOpcodes⟩

/-! ## The accesses of a store, on any bus -/

/-- The resolver neither reads nor writes the budget. -/
theorem resolve_setBudget (o : Operand) (s : State) (k : Nat) :
    resolve o (s.setBudget k) = ((resolve o s).1, (resolve o s).2.setBudget k) := by
  cases o <;> rfl

/-- The resolver sets the tag of its mode. -/
theorem resolve_tag (o : Operand) (s : State) : (resolve o s).2.tag = o.tag := by
  obtain ⟨_, _, _, -, h⟩ := resolve_cases o s
  rw [h]

/-- The resolver leaves the register a store writes. -/
theorem storedRegister_resolve (op : Op) (o : Operand) (s : State) :
    storedRegister op (resolve o s).2 = storedRegister op s := by
  obtain ⟨_, _, _, -, h⟩ := resolve_cases o s
  rw [h]
  cases op <;> rfl

/-- A store completes on any bus: after the resolver, one Bus write and the budget of its class. -/
theorem exec_store {i : Instr} (h : i.op.isStore = true) (s : State) :
    let r := (resolve i.operand (advance 1 s)).2
    exec i s = .next ((memWrite r.ea (storedRegister i.op s) r).setBudget (i.op.ticks i.mode - 1)) := by
  intro r
  have hop := opRun_store h (s := r.setBudget (i.op.ticks i.mode)) (resolve_tag i.operand (advance 1 s))
  have hreg : storedRegister i.op (r.setBudget (i.op.ticks i.mode)) = storedRegister i.op s :=
    storedRegister_resolve i.op i.operand (advance 1 s)
  rw [hreg] at hop
  rw [exec_eq_runInstr, runInstr, resolve_setBudget]
  simp only [r, hop, done, Bool.and_false]
  rfl

/-- Without a pointer to read, the resolver gives the address of the mode and leaves the Bus alone. -/
theorem resolve_of_no_pointer {o : Operand} (h : readsPointer o = false) (s : State) :
    (resolve o (advance 1 s)).2 = s.resolved o s.budget :=
  congrArg Prod.snd (resolve_eq (.inr h) s.budget)

/-- Only JMP has the indirect mode (30_encoding R112). -/
theorem mode_ne_ind {i : Instr} (h : i.op ≠ .jmp) : i.mode ≠ .ind := by
  cases i with
  | jmpInd w => exact absurd rfl h
  | _ => exact fun e => nomatch e

/-- Settles O58: the resolver, then the one Bus write. -/
theorem storesMakeOneBusWriteAndNoRead : Obligations.StoresMakeOneBusWriteAndNoRead := by
  intro s i v hv
  obtain ⟨hs, rfl⟩ : i.op.isStore = true ∧ v = storedRegister i.op s := by
    rcases hv with ⟨hi, rfl⟩ | ⟨hi, rfl⟩ | ⟨hi, rfl⟩ <;> (rw [hi]; exact ⟨rfl, rfl⟩)
  refine ⟨_, exec_store hs s, rfl, rfl, fun hm => ?_⟩
  have hind : i.mode ≠ .ind := mode_ne_ind fun hjmp => by rw [hjmp] at hs; cases hs
  have hnp : readsPointer i.operand = false :=
    Bool.eq_false_iff.mpr (mt List.contains_iff_mem.mp (List.not_mem_cons_of_ne_of_not_mem hind hm))
  rw [resolve_of_no_pointer hnp]
  exact ⟨rfl, rfl⟩

end Sys2Proof.Machine

/-! SUPPORT. Arithmetic, logic, compare, bit test, increment and decrement (42 R190 to R206): the flags in
numbers, and the effect of a read-modify-write on the Bus. -/

namespace Sys2Proof.Machine

/-! ## Bytes and flags in numbers -/

/-- A bit of a byte, by division. -/
theorem Byte.getLsbD_eq_bitOf (v : Byte) (k : Nat) : v.getLsbD k = bitOf v k := by
  rw [BitVec.getLsbD, Nat.testBit_eq_decide_div_mod_eq, bitOf]

theorem Byte.add_one_eq (v : Byte) : v + 1 = BitVec.ofNat 8 (v.toNat + 1) := by
  rw [BitVec.ofNat_add, BitVec.ofNat_toNat, BitVec.setWidth_eq]
  rfl

theorem Byte.sub_one_eq (v : Byte) : v - 1 = BitVec.ofNat 8 (v.toNat + 255) := by
  rw [BitVec.ofNat_add, BitVec.ofNat_toNat, BitVec.setWidth_eq, BitVec.sub_eq_add_neg]
  rfl

/-- The bit formula of R190 compares the signs: those of the inputs agree, and the result's is another. -/
theorem addOverflow_eq_signs (a m r : Byte) :
    addOverflow a m r =
      decide ((128 ≤ a.toNat ↔ 128 ≤ m.toNat) ∧ ¬(128 ≤ a.toNat ↔ 128 ≤ r.toNat)) := by
  have hbits (x y z : Bool) : (!(x ^^ y) && (x ^^ z)) = decide (x = y ∧ ¬x = z) := by
    revert x y z; decide
  have hbit : addOverflow a m r = (!(a.getLsbD 7 ^^ m.getLsbD 7) && (a.getLsbD 7 ^^ r.getLsbD 7)) := by
    simp [addOverflow]
  simp only [hbit, hbits, Byte.bit_seven, decide_eq_decide]

/-- The bit formula of R190 says that the signed sum is out of range. -/
theorem addOverflow_eq (a m : Byte) (c : Bool) :
    addOverflow a m (addResult a m c) =
      decide (a.toInt + m.toInt + c.toNat < -128 ∨ 127 < a.toInt + m.toInt + c.toNat) := by
  have ha := a.isLt
  have hm := m.isLt
  have hc := c.toNat_le
  have hr : (addResult a m c).toNat = (a.toNat + m.toNat + c.toNat) % 256 := BitVec.toNat_ofNat _ _
  rw [addOverflow_eq_signs, hr, BitVec.toInt_eq_toNat_cond, BitVec.toInt_eq_toNat_cond]
  refine decide_eq_decide.mpr ?_
  split <;> split <;> omega

/-- The flags of an addition in numbers (R190). -/
theorem adcFlags_eq (a m : Byte) (f : Flags) :
    adcFlags a m f =
      ({ f with
        c := decide (255 < addTotal a m f.c)
        v := decide (a.toInt + m.toInt + f.c.toNat < -128 ∨ 127 < a.toInt + m.toInt + f.c.toNat) }).ofResult
        (addResult a m f.c) := by
  rw [adcFlags, Flags.withZN_eq_ofResult, addOverflow_eq]

theorem sbcInput_toNat (m : Byte) : (sbcInput m).toNat = 255 - m.toNat := by
  revert m; decide

theorem sbcInput_toInt (m : Byte) : (sbcInput m).toInt = -1 - m.toInt := by
  revert m; decide

/-- Adding the inverted byte with C subtracts the byte and the borrow (R191). -/
theorem addResult_sbcInput (a m : Byte) (c : Bool) :
    addResult a (sbcInput m) c = BitVec.ofInt 8 ((a.toNat : Int) - m.toNat - (1 - c.toNat : Nat)) := by
  have hm := m.isLt
  have hc := c.toNat_le
  apply BitVec.eq_of_toNat_eq
  rw [addResult, addTotal, sbcInput_toNat, BitVec.toNat_ofNat, BitVec.toNat_ofInt]
  omega

/-- The addition carries out of 255 when the subtraction borrows nothing (R191). -/
theorem addTotal_sbcInput_carries (a m : Byte) (c : Bool) :
    255 < addTotal a (sbcInput m) c ↔ m.toNat + (1 - c.toNat) ≤ a.toNat := by
  have hm := m.isLt
  have hc := c.toNat_le
  rw [addTotal, sbcInput_toNat]
  omega

/-- The signed sum of the addition is the signed difference less the borrow (R191). -/
theorem toInt_add_sbcInput (a m : Byte) (c : Bool) :
    a.toInt + (sbcInput m).toInt + c.toNat = a.toInt - m.toInt - (1 - c.toNat : Nat) := by
  have hc := c.toNat_le
  rw [sbcInput_toInt]
  omega

/-- The flags of a subtraction in numbers, for both values of `SBC_V_LITERAL` (R191, D7). -/
theorem sbcFlags_eq (literal : Bool) (a m : Byte) (f : Flags) :
    sbcFlags literal a m f =
      ({ f with
        c := decide (m.toNat + (1 - f.c.toNat) ≤ a.toNat)
        v := if literal then
            bitOf ((addResult a (sbcInput m) f.c ^^^ a) &&& (addResult a (sbcInput m) f.c ^^^ sbcInput m)) 0
          else
            decide (a.toInt - m.toInt - (1 - f.c.toNat : Nat) < -128 ∨
              127 < a.toInt - m.toInt - (1 - f.c.toNat : Nat)) }).ofResult (addResult a (sbcInput m) f.c) := by
  rw [sbcFlags, adcFlags_eq, sbcOverflowLiteral, Byte.getLsbD_eq_bitOf, toInt_add_sbcInput,
    decide_eq_decide.mpr (addTotal_sbcInput_carries a m f.c)]
  cases literal <;> rfl

/-- The flags of a comparison in numbers (R195 to R197). -/
theorem compareFlags_eq (r m : Byte) (f : Flags) :
    compareFlags r m f =
      { f with
        c := decide (m.toNat ≤ r.toNat), z := decide (r.toNat = m.toNat)
        n := decide (128 ≤ (r.toNat + 256 - m.toNat) % 256) } := by
  have hm := m.isLt
  have hdiff : (r - m).toNat = (r.toNat + 256 - m.toNat) % 256 := by
    rw [BitVec.toNat_sub]
    omega
  rw [compareFlags, Byte.bit_seven, hdiff, decide_eq_decide.mpr BitVec.toNat_inj.symm]

/-- The flags of BIT by division (R198). -/
theorem bitFlags_eq (a m : Byte) (f : Flags) :
    bitFlags a m f = { f with z := decide (a &&& m = 0), n := bitOf m 7, v := bitOf m 6 } := by
  simp only [bitFlags, Byte.getLsbD_eq_bitOf]

/-! ## The read operations -/

/-- Settles O15: the operation is one addition with the operand byte. -/
theorem addWithCarryAddsAndSetsFlags : Obligations.AddWithCarryAddsAndSetsFlags := by
  refine ⟨fun s i h hi => ?_, Op.adc.hasOpcodes⟩
  refine does_of_load hi rfl h (g := fun m s =>
    (s.setA (addResult s.a m s.flags.c)).setFlags (adcFlags s.a m s.flags)) rfl ?_
  rw [adcFlags_eq]
  rfl

/-- Settles O16: the operation is an addition with the inverted operand byte, under either V formula. -/
theorem subtractWithCarrySubtractsAndSetsFlags : Obligations.SubtractWithCarrySubtractsAndSetsFlags := by
  refine ⟨fun s i h hi => ?_, Op.sbc.hasOpcodes⟩
  refine does_of_load hi rfl h (g := fun m s => (s.setA (addResult s.a (sbcInput m) s.flags.c)).setFlags
    (sbcFlags s.params.sbcVLiteral s.a m s.flags)) rfl ?_
  rw [sbcFlags_eq, addResult_sbcInput]
  rfl

/-- Settles O17: each operation sets A and ends in `SetZN`. -/
theorem logicalOperationsWriteTheAccumulator : Obligations.LogicalOperationsWriteTheAccumulator :=
  ⟨fun _ _ h hi => does_of_load hi rfl h (g := fun m s => setAccumulator (s.a &&& m) s) rfl (setZN_eq _ _),
    fun _ _ h hi => does_of_load hi rfl h (g := fun m s => setAccumulator (s.a ||| m) s) rfl (setZN_eq _ _),
    fun _ _ h hi => does_of_load hi rfl h (g := fun m s => setAccumulator (s.a ^^^ m) s) rfl (setZN_eq _ _),
    Op.and.hasOpcodes, Op.ora.hasOpcodes, Op.eor.hasOpcodes⟩

/-- Settles O18: each operation sets the flags of one comparison. -/
theorem comparesSetFlagsOnly : Obligations.ComparesSetFlagsOnly :=
  ⟨fun _ _ h hi => does_of_load hi rfl h (g := fun m s => s.setFlags (compareFlags s.a m s.flags)) rfl
      (congrArg (State.setFlags _) (compareFlags_eq _ _ _)),
    fun _ _ h hi => does_of_load hi rfl h (g := fun m s => s.setFlags (compareFlags s.x m s.flags)) rfl
      (congrArg (State.setFlags _) (compareFlags_eq _ _ _)),
    fun _ _ h hi => does_of_load hi rfl h (g := fun m s => s.setFlags (compareFlags s.y m s.flags)) rfl
      (congrArg (State.setFlags _) (compareFlags_eq _ _ _)),
    Op.cmp.hasOpcodes, Op.cpx.hasOpcodes, Op.cpy.hasOpcodes⟩

/-- Settles O19: the operation sets the flags of one bit test. -/
theorem bitTestCopiesOperandBits : Obligations.BitTestCopiesOperandBits :=
  ⟨fun _ _ h hi => does_of_load hi rfl h (g := fun m s => s.setFlags (bitFlags s.a m s.flags)) rfl
      (congrArg (State.setFlags _) (bitFlags_eq _ _ _)),
    Op.bit.hasOpcodes⟩

/-! ## Increment and decrement -/

/-- On a described bus INC and DEC, which have no accumulator mode, store the changed operand byte and set Z and N
from it. -/
theorem does_of_modify {s : State} {i : Instr} {o : Op} (hi : i.op = o) (ho : o ∈ [Op.inc, .dec]) (h : s.plain)
    {f : Byte → Byte}
    (hop : opRun o = fun s => withLoad 0 s fun m s => withStore 0 (f m) s fun s => done (setZN (f m) s)) :
    i.Does s { i.baseEffect s with
      stores := i.operand.stores s (f (i.operand.value s)), flags := s.flags.ofResult (f (i.operand.value s)) } := by
  subst hi
  have hmodify : i.op.isModify = true := by revert ho; cases i.op <;> decide
  have hread : i.op.isRead = false := by revert ho; cases i.op <;> decide
  have himp : i.operand.mode ≠ .imp := operand_mode_ne_imp (.inr (.inr (.inl hmodify)))
  have hacc : i.operand.mode ≠ .acc :=
    mode_ne_acc (show i.op ∈ [Op.sta, .stx, .sty] ++ [.inc, .dec] from List.mem_append_right _ ho)
  obtain ⟨ds, hst, hk⟩ := withStore_resolved h (i.op.ticks i.mode) himp (f (i.operand.value s))
  have hrun := (congrFun hop _).trans ((withLoad_resolved h (i.op.ticks i.mode) himp _).trans (hk _))
  rw [if_neg hacc, setZN_eq] at hrun
  exact does_of_run (.inl h) hrun (fun _ => hread.symm) ⟨hst.memory, hst.devices, hst.shape⟩
    (sameHostSide_resolved s i.operand (i.op.ticks i.mode)) rfl rfl rfl rfl rfl rfl rfl rfl rfl

/-- Settles O20: each operation stores the operand byte plus or minus one. -/
theorem incrementAndDecrementMemory : Obligations.IncrementAndDecrementMemory :=
  ⟨fun s i h hi => Byte.add_one_eq (i.operand.value s) ▸ does_of_modify hi (by decide) h (f := (· + 1)) rfl,
    fun s i h hi => Byte.sub_one_eq (i.operand.value s) ▸ does_of_modify hi (by decide) h (f := (· - 1)) rfl,
    Op.inc.hasOpcodes, Op.dec.hasOpcodes⟩

/-- Settles O21: each operation changes one index register by one and ends in `SetZN`. -/
theorem incrementAndDecrementIndex : Obligations.IncrementAndDecrementIndex :=
  ⟨fun s _ hi => Byte.add_one_eq s.x ▸ does_of_implied hi rfl (congrArg done (setZN_eq _ _)),
    fun s _ hi => Byte.add_one_eq s.y ▸ does_of_implied hi rfl (congrArg done (setZN_eq _ _)),
    fun s _ hi => Byte.sub_one_eq s.x ▸ does_of_implied hi rfl (congrArg done (setZN_eq _ _)),
    fun s _ hi => Byte.sub_one_eq s.y ▸ does_of_implied hi rfl (congrArg done (setZN_eq _ _)),
    Op.inx.hasOpcodes, Op.iny.hasOpcodes, Op.dex.hasOpcodes, Op.dey.hasOpcodes⟩

end Sys2Proof.Machine

/-! SUPPORT. The decimal flag is carried along and read by no computation (42 R205). -/

namespace Sys2Proof.Machine

/-- The state with D replaced. -/
def State.setD (d : Bool) (s : State) : State := s.setFlags { s.flags with d := d }

/-- An outcome with its next state changed. -/
def mapNext {α β : Type} (f : α → β) : Host.Outcome α Fault Refusal → Host.Outcome β Fault Refusal
  | .next a => .next (f a)
  | .fault e => .fault e
  | .refused e => .refused e

/-- The answer of an operation with D replaced in its state. -/
def resultSetD (d : Bool) : OpResult → OpResult := mapNext (Prod.map (State.setD d) id)

theorem resolve_setD (d : Bool) (o : Operand) (s : State) :
    resolve o (s.setD d) = ((resolve o s).1, (resolve o s).2.setD d) := by
  cases o <;> rfl

section
variable {d : Bool}

/-- `Load(0)` carries D along to what goes on with the byte. -/
theorem withLoad_setD {s : State} {k : Byte → State → OpResult}
    (hk : ∀ v t, k v (t.setD d) = resultSetD d (k v t)) :
    withLoad 0 (s.setD d) k = resultSetD d (withLoad 0 s k) := by
  have htag : (s.setD d).tag = s.tag := rfl
  unfold withLoad
  rw [htag]
  cases s.tag with
  | accumulator => exact hk s.a s
  | immediate v => exact hk v s
  | address => exact hk (memRead (offAddr s.ea 0) s).1 (memRead (offAddr s.ea 0) s).2
  | implied => rfl

/-- `Store(0, v)` carries D along to what goes on after it. -/
theorem withStore_setD {v : Byte} {s : State} {k l : State → OpResult}
    (hk : ∀ t, l (t.setD d) = resultSetD d (k t)) :
    withStore 0 v (s.setD d) l = resultSetD d (withStore 0 v s k) := by
  have htag : (s.setD d).tag = s.tag := rfl
  unfold withStore
  rw [htag]
  cases s.tag with
  | accumulator => exact hk (s.setA v)
  | immediate w => exact hk (memWrite (offAddr s.ea 0) v s)
  | address => exact hk (memWrite (offAddr s.ea 0) v s)
  | implied => rfl

/-- The flags of a subtraction carry D along under either V formula. -/
theorem sbcFlags_setD (literal : Bool) (a m : Byte) (f : Flags) :
    sbcFlags literal a m { f with d := d } = { sbcFlags literal a m f with d := d } := by
  cases literal <;> rfl

theorem branch_setD (cond : Bool) (s : State) : branch cond (s.setD d) = resultSetD d (branch cond s) :=
  withLoad_setD fun _ _ => by cases cond <;> rfl

theorem shiftWith_setD (parts : Bool → Byte → Byte × Bool) (s : State) :
    shiftWith parts (s.setD d) = resultSetD d (shiftWith parts s) :=
  withLoad_setD fun _ _ => withStore_setD fun _ => rfl

/-- An operation that does not pack, pull or write D runs the same with D replaced. -/
theorem opRun_setD {o : Op} (ho : o ∉ [Op.php, .brk, .plp, .rti, .sed, .cld]) (s : State) :
    opRun o (s.setD d) = resultSetD d (opRun o s) := by
  unfold opRun
  cases o with
  | php | brk | plp | rti | sed | cld => exact absurd (by decide) ho
  | lda | ldx | ldy | adc | and | ora | eor | cmp | cpx | cpy | bit => exact withLoad_setD fun _ _ => rfl
  | sbc =>
    exact withLoad_setD fun m t =>
      congrArg (fun f => doneEligible ((t.setA (addResult t.a (sbcInput m) t.flags.c)).setFlags f))
        (sbcFlags_setD t.params.sbcVLiteral t.a m t.flags)
  | inc | dec => exact withLoad_setD fun _ _ => withStore_setD fun _ => rfl
  | sta | stx | sty => exact withStore_setD fun _ => rfl
  | asl | lsr | rol | ror => exact shiftWith_setD _ s
  | bcc | bcs | beq | bne | bmi | bpl | bvc | bvs => exact branch_setD _ s
  | tax | tay | txa | tya | tsx | txs | inx | iny | dex | dey | clc | sec | cli | sei | clv | nop | jmp | jsr | rts
  | pha | pla => rfl

theorem runInstr_setD {base : Nat} {o : Operand} {op : State → OpResult}
    (hop : ∀ t, op (t.setD d) = resultSetD d (op t)) (s : State) :
    runInstr base o op (s.setD d) = mapNext (State.setD d) (runInstr base o op s) := by
  have hres := resolve_setD d o ((advance 1 s).setBudget base)
  have hstart : (advance 1 (s.setD d)).setBudget base = ((advance 1 s).setBudget base).setD d := rfl
  simp only [runInstr, hstart, hres, hop]
  cases op (resolve o ((advance 1 s).setBudget base)).2 with
  | next p =>
    simp only [resultSetD, mapNext, Prod.map_fst, Prod.map_snd, id_eq]
    split <;> rfl
  | fault f => rfl
  | refused e => rfl

end

/-- Settles O52: the frame of a dispatch and every operation but the six carry D along. -/
theorem decimalFlagHasNoEffect : Obligations.DecimalFlagHasNoEffect := by
  intro i s d hi
  obtain ⟨t, ht, -⟩ := exec_frame i s
  refine ⟨t, ht, ?_⟩
  calc exec i (s.setD d) = mapNext (State.setD d) (exec i s) := by
        rw [exec_eq_runInstr, exec_eq_runInstr, runInstr_setD (opRun_setD hi)]
    _ = .next (t.setD d) := by rw [ht]; rfl

end Sys2Proof.Machine

/-! SUPPORT. Shifts and rotates (43 R210 to R214): result and carry in numbers, and the effect of a one-bit move in
the accumulator or on the Bus. -/

namespace Sys2Proof.Machine

/-! ## Result and carry in numbers -/

theorem statusBit_toNat (b : Bool) {k : Nat} (hk : k < 8) : (statusBit b k).toNat = 2 ^ k * b.toNat := by
  cases b with
  | false => simp [statusBit]
  | true =>
    have hpow : statusBit true k = BitVec.twoPow 8 k := rfl
    rw [hpow, BitVec.toNat_twoPow_of_lt hk, Bool.toNat_true, Nat.mul_one]

/-- A left shift and the bit that comes in below make one byte. -/
theorem Byte.shiftLeft_one_or_statusBit (v : Byte) (c : Bool) :
    v <<< 1 ||| statusBit c 0 = BitVec.ofNat 8 (2 * v.toNat + c.toNat) := by
  have hc := c.toNat_le
  have hv : v.toNat <<< 1 % 2 ^ 8 = 2 ^ 1 * (v.toNat % 128) := by
    rw [Nat.shiftLeft_eq]
    omega
  apply BitVec.eq_of_toNat_eq
  rw [BitVec.toNat_or, BitVec.toNat_shiftLeft, statusBit_toNat c (by decide), hv, Nat.pow_zero, Nat.one_mul,
    ← Nat.two_pow_add_eq_or_of_lt (by omega), BitVec.toNat_ofNat]
  omega

/-- A right shift and the bit that comes in above make one byte. -/
theorem Byte.shiftRight_one_or_statusBit (v : Byte) (c : Bool) :
    v >>> 1 ||| statusBit c 7 = BitVec.ofNat 8 (v.toNat / 2 + 128 * c.toNat) := by
  have hc := c.toNat_le
  have hv : v.toNat / 2 < 2 ^ 7 := by
    have := v.isLt
    omega
  apply BitVec.eq_of_toNat_eq
  rw [BitVec.toNat_or, BitVec.toNat_ushiftRight, statusBit_toNat c (by decide), Nat.shiftRight_one, Nat.or_comm,
    ← Nat.two_pow_add_eq_or_of_lt hv, BitVec.toNat_ofNat]
  omega

theorem Byte.bit_zero (v : Byte) : v.getLsbD 0 = decide (v.toNat % 2 = 1) := by
  rw [Byte.getLsbD_eq_bitOf, bitOf, Nat.pow_zero, Nat.div_one]

theorem rolParts_eq (c : Bool) (v : Byte) :
    rolParts c v = (BitVec.ofNat 8 (2 * v.toNat + c.toNat), decide (128 ≤ v.toNat)) := by
  rw [rolParts, Byte.shiftLeft_one_or_statusBit, Byte.bit_seven]

theorem rorParts_eq (c : Bool) (v : Byte) :
    rorParts c v = (BitVec.ofNat 8 (v.toNat / 2 + 128 * c.toNat), decide (v.toNat % 2 = 1)) := by
  rw [rorParts, Byte.shiftRight_one_or_statusBit, Byte.bit_zero]

/-- ASL is ROL with a zero coming in. -/
theorem aslParts_eq (c : Bool) (v : Byte) :
    aslParts c v = (BitVec.ofNat 8 (2 * v.toNat), decide (128 ≤ v.toNat)) := by
  have hrol : aslParts c v = rolParts false v := by
    simp [aslParts, rolParts, statusBit]
  exact hrol.trans (rolParts_eq false v)

/-- LSR is ROR with a zero coming in. -/
theorem lsrParts_eq (c : Bool) (v : Byte) :
    lsrParts c v = (BitVec.ofNat 8 (v.toNat / 2), decide (v.toNat % 2 = 1)) := by
  have hror : lsrParts c v = rorParts false v := by
    simp [lsrParts, rorParts, statusBit]
  exact hror.trans (rorParts_eq false v)

/-- The flags of a shift or rotate in numbers (R214). -/
theorem shiftFlags_eq (p : Byte × Bool) (f : Flags) : shiftFlags p f = ({ f with c := p.2 }).ofResult p.1 := by
  rw [shiftFlags, Flags.withZN_eq_ofResult]

/-! ## The effect -/

theorem isRead_of_isModify {o : Op} (h : o.isModify = true) : o.isRead = false := by
  cases o with
  | asl | lsr | rol | ror | inc | dec => rfl
  | _ => cases h

/-- A shift or rotate in a dispatch stores the result of its operand byte and the old C, and sets the flags. -/
theorem shiftWith_resolved {s : State} (h : s.plain) (base : Nat) {o : Operand} (ho : o.mode ≠ .imp)
    (parts : Bool → Byte → Byte × Bool) :
    shiftWith parts (s.resolved o base) =
      withStore 0 (parts s.flags.c (o.value s)).1 (s.resolved o base) fun t =>
        done (t.setFlags (shiftFlags (parts s.flags.c (o.value s)) s.flags)) :=
  withLoad_resolved h base ho _

/-- On a described bus a shift or rotate writes its result to A in accumulator mode and stores it at the effective
address otherwise, and sets C, Z and N. -/
theorem does_of_shift {s : State} {i : Instr} {o : Op} (hi : i.op = o) (ho : o.isModify = true) (h : s.plain)
    {parts : Bool → Byte → Byte × Bool} (hop : opRun o = shiftWith parts) {r : Byte} {c : Bool}
    (hp : parts s.flags.c (i.operand.value s) = (r, c)) :
    i.Does s { i.baseEffect s with
      a := if i.mode = .acc then r else s.a
      stores := i.operand.stores s r
      flags := ({ s.flags with c := c }).ofResult r } := by
  subst hi
  have himp : i.operand.mode ≠ .imp := operand_mode_ne_imp (.inr (.inr (.inl ho)))
  have hshift := shiftWith_resolved h (i.op.ticks i.mode) himp parts
  rw [hp, shiftFlags_eq] at hshift
  obtain ⟨ds, hst, hstore⟩ := withStore_resolved h (i.op.ticks i.mode) himp r
  have hrun := (congrFun hop _).trans (hshift.trans (hstore _))
  exact does_of_run (.inl h) hrun (fun _ => (isRead_of_isModify ho).symm) ⟨hst.memory, hst.devices, hst.shape⟩
    (sameHostSide_resolved s i.operand (i.op.ticks i.mode)) rfl rfl rfl rfl rfl rfl rfl rfl rfl

/-- Settles O22: each operation moves its operand by one bit, the rotates with the old C coming in. -/
theorem shiftsAndRotatesMoveOneBit : Obligations.ShiftsAndRotatesMoveOneBit :=
  ⟨fun _ _ h hi => does_of_shift hi rfl h rfl (aslParts_eq _ _),
    fun _ _ h hi => does_of_shift hi rfl h rfl (lsrParts_eq _ _),
    fun _ _ h hi => does_of_shift hi rfl h rfl (rolParts_eq _ _),
    fun _ _ h hi => does_of_shift hi rfl h rfl (rorParts_eq _ _),
    Op.asl.hasOpcodes, Op.lsr.hasOpcodes, Op.rol.hasOpcodes, Op.ror.hasOpcodes⟩

end Sys2Proof.Machine

/-! SUPPORT. Jumps, subroutines and branches (44 R220 to R231): the effect of an operation that changes PC, SP and the
bytes of the stack, the target and the ticks of a branch, and a call followed by its return. -/

namespace Sys2Proof.Machine

/-! ## Jumps and subroutines -/

/-- An operation that is not a read and changes PC, SP and the device list only has the effect of its stores and
the two registers. -/
theorem does_of_jump {s : State} {i : Instr} {o : Op} (hi : i.op = o) (hr : o.isRead = false) (h : s.plain)
    {pc : Addr} {sp : Byte} {ds : List Device} {stores : List (Addr × Byte)}
    (hop : opRun o (s.resolved i.operand (i.op.ticks i.mode)) =
      done { s.resolved i.operand (i.op.ticks i.mode) with pc := pc, sp := sp, devices := ds })
    (hst : OnlyStored s (s.setDevices ds) stores) :
    i.Does s { i.baseEffect s with pc := pc, sp := sp, stores := stores } := by
  subst hi
  exact does_of_run (.inl h) hop (fun _ => hr.symm) ⟨hst.memory, hst.devices, hst.shape⟩
    (sameHostSide_resolved s i.operand (i.op.ticks i.mode)) rfl rfl rfl rfl rfl rfl rfl rfl rfl

/-- Settles O23: PC is EA, and nothing is stored. -/
theorem jumpGoesToItsAddress : Obligations.JumpGoesToItsAddress :=
  ⟨fun _ _ h hi => does_of_jump hi rfl h rfl (.none rfl), Op.jmp.hasOpcodes⟩

theorem stackAddr_sp (s : State) : stackAddr s.sp = s.stackDown 0 := by
  rw [← stackAddr_down s 0 (by decide), BitVec.sub_zero]

/-- The first two pushes of an instruction, in numbers: the high byte at SP, the low byte below it. -/
theorem push16_resolved {s : State} (h : s.plain) (o : Operand) (base : Nat) (w : Addr) :
    ∃ ds : List Device,
      push16 w (s.resolved o base) = ((s.resolved o base).setDevices ds).setSp (s.spDown 2) ∧
        OnlyStored s (s.setDevices ds)
          [(s.stackDown 1, BitVec.ofNat 8 (w.toNat % 256)), (s.stackDown 0, BitVec.ofNat 8 (w.toNat / 256))] := by
  obtain ⟨ds, hpush, hst⟩ := (resolved_stored h base o).push16 w
  have hsp : s.sp - 1 - 1 = s.spDown 2 := by
    rw [spDown_eq s 2 (by decide), BitVec.sub_sub]; rfl
  have haddr : stackAddr (s.sp - 1) = s.stackDown 1 := stackAddr_down s 1 (by decide)
  refine ⟨ds, hsp ▸ hpush, ?_⟩
  rw [← haddr, ← stackAddr_sp, ← loByte_eq, ← hiByte_eq]
  exact (hst.congr (u := s.setDevices ds) rfl).toOnlyStored

theorem pcPlus_add (s : State) (j k : Nat) : s.pcPlus j + BitVec.ofNat 16 k = s.pcPlus (j + k) := by
  rw [pcPlus_eq, pcPlus_eq, BitVec.add_assoc, ← BitVec.ofNat_add]

/-- The last byte of a three-byte instruction stands just before the next one. -/
theorem pcPlus_three_sub_one (s : State) : s.pcPlus 3 - 1 = s.pcPlus 2 := by
  rw [← pcPlus_add s 2 1]
  exact BitVec.add_sub_cancel ..

/-- Settles O24: the word that is pushed is the address just before the next instruction. -/
theorem jsrPushesTheAddressOfItsLastByte : Obligations.JsrPushesTheAddressOfItsLastByte := by
  refine ⟨fun s i h hi => ?_, Op.jsr.hasOpcodes⟩
  have habs : i.operand.mode = .abs := Instr.mode_eq_of_modes (by rw [hi]; rfl)
  have hlast : (s.resolved i.operand (i.op.ticks i.mode)).pc - 1 = s.pcPlus 2 := by
    rw [State.resolved, habs]
    exact pcPlus_three_sub_one s
  obtain ⟨ds, hpush, hst⟩ := push16_resolved h i.operand (i.op.ticks i.mode) (s.pcPlus 2)
  refine does_of_jump hi rfl h (ds := ds) ?_ hst
  rw [opRun, opJsr, hlast, hpush]
  rfl

/-- The first two pulls of an instruction, in numbers: the low byte above SP, the high byte above that. -/
theorem withPull16_resolved {α : Type} {s : State} (h : s.plain) (o : Operand) (base : Nat)
    (k : Addr → State → α) :
    withPull16 (s.resolved o base) k =
      k (BitVec.ofNat 16 (s.pulledWord 1)) ((s.resolved o base).setSp (s.spUp 2)) := by
  have hsp : s.sp + 1 + 1 = s.spUp 2 := by
    rw [spUp_eq, BitVec.add_assoc]; rfl
  have hlo : stackAddr (s.sp + 1) = s.stackUp 1 := stackAddr_up s 1
  have hhi : stackAddr (s.spUp 2) = s.stackUp 2 := by
    rw [spUp_eq, stackAddr_up]
  have hpull := (resolved_stored h base o).withPull16 k
  rwa [word16_eq, show (s.resolved o base).sp = s.sp from rfl, hsp, hlo, hhi] at hpull

/-- Settles O25: PC is one past the word that is pulled, and nothing is stored. -/
theorem rtsResumesAfterTheCall : Obligations.RtsResumesAfterTheCall := by
  refine ⟨fun s i h hi => ?_, Op.rts.hasOpcodes⟩
  refine does_of_jump hi rfl h (ds := s.devices) ?_ (.none rfl)
  rw [opRun, opRts, withPull16_resolved h, BitVec.ofNat_add]
  rfl

/-! ## Branches -/

/-- The target of a branch in numbers (R223). -/
theorem branchTarget_eq (next : Addr) (d : Byte) :
    branchTarget next d = BitVec.ofInt 16 (next.toNat + d.toInt) := by
  rw [branchTarget, BitVec.ofInt_add, BitVec.ofInt_natCast, BitVec.ofNat_toNat, BitVec.setWidth_eq]
  rfl

/-- Every branch is in Relative mode (30_encoding R112). -/
theorem mode_eq_rel {i : Instr} (h : i.op.isBranch = true) : i.mode = .rel := by
  refine Instr.mode_eq_of_modes ?_
  revert h
  cases i.op <;> decide

theorem isRead_of_isBranch {o : Op} (h : o.isBranch = true) : o.isRead = false := by
  cases o with
  | bcc | bcs | beq | bne | bmi | bpl | bvc | bvs => rfl
  | _ => cases h

theorem ticks_of_isBranch {o : Op} (h : o.isBranch = true) : o.ticks .rel = 2 := by
  cases o with
  | bcc | bcs | beq | bne | bmi | bpl | bvc | bvs => rfl
  | _ => cases h

/-- A branch not taken leaves the state its operation starts in. -/
theorem branch_not_taken {o : Operand} (h : o.mode = .rel) (s : State) (base : Nat) :
    branch false (s.resolved o base) = done (s.resolved o base) := by
  cases o with
  | rel d => rfl
  | _ => cases h

/-- A branch taken goes to its target, for one tick more, and one more where that lies in another page. -/
theorem branch_taken {o : Operand} (h : o.mode = .rel) (s : State) (base : Nat) :
    branch true (s.resolved o base) =
      done { s.resolved o base with
        pc := branchTarget (s.pcPlus 2) (o.value s)
        budget := base + 1 + (pageDiffers (branchTarget (s.pcPlus 2) (o.value s)) (s.pcPlus 2)).toNat } := by
  cases o with
  | rel d => rfl
  | _ => cases h

/-- A mnemonic whose operation is a branch has the effect of a branch, on any bus. -/
theorem does_of_branch {s : State} {i : Instr} {o : Op} (hi : i.op = o) (ho : o.isBranch = true) {cond : Bool}
    (hop : opRun o (s.resolved i.operand (i.op.ticks i.mode)) =
      branch cond (s.resolved i.operand (i.op.ticks i.mode))) :
    i.Does s (i.branchEffect s cond) := by
  subst hi
  have hrel : i.operand.mode = .rel := mode_eq_rel ho
  have hread := isRead_of_isBranch ho
  have hnp : readsPointer i.operand = false := by
    rw [readsPointer, hrel]; rfl
  have hhost := sameHostSide_resolved s i.operand (i.op.ticks i.mode)
  cases cond with
  | false =>
    exact does_of_run (.inr hnp) (hop.trans (branch_not_taken hrel s _)) (fun _ => hread.symm) (.none rfl) hhost
      rfl rfl rfl rfl rfl rfl rfl rfl rfl
  | true =>
    have hticks : i.op.ticks i.mode = 2 := by
      rw [mode_eq_rel ho, ticks_of_isBranch ho]
    have hcross : i.crossTicks s = 0 := by
      rw [Instr.crossTicks, hread]; rfl
    have hnext : (s.pcPlus 2).toNat = (s.pc.toNat + 2) % 65536 := BitVec.toNat_ofNat ..
    have htarget := branchTarget_eq (s.pcPlus 2) (i.operand.value s)
    rw [hnext] at htarget
    refine does_of_run (.inr hnp) (hop.trans (branch_taken hrel s _)) (fun _ => hread.symm) (.none rfl) hhost
      rfl rfl rfl rfl htarget rfl ?_ rfl rfl
    simp only [Instr.branchEffect, if_true, hticks, hcross, pageDiffers_eq, hnext, htarget]
    omega

/-- Settles O26: each operation is a branch on one flag. -/
theorem branchesTestTheirFlag : Obligations.BranchesTestTheirFlag :=
  ⟨fun _ _ hi => does_of_branch hi rfl rfl, fun _ _ hi => does_of_branch hi rfl rfl,
    fun _ _ hi => does_of_branch hi rfl rfl, fun _ _ hi => does_of_branch hi rfl rfl,
    fun _ _ hi => does_of_branch hi rfl rfl, fun _ _ hi => does_of_branch hi rfl rfl,
    fun _ _ hi => does_of_branch hi rfl rfl, fun _ _ hi => does_of_branch hi rfl rfl,
    Op.bcc.hasOpcodes, Op.bcs.hasOpcodes, Op.beq.hasOpcodes, Op.bne.hasOpcodes, Op.bmi.hasOpcodes,
    Op.bpl.hasOpcodes, Op.bvc.hasOpcodes, Op.bvs.hasOpcodes⟩

/-! ## A call and its return -/

/-- The effect of an instruction is that of the state it answers. -/
theorem holds_of_exec {i : Instr} {s t : State} {e : Effect} (h : i.Does s e) (ht : exec i s = .next t) :
    e.Holds s t := by
  obtain ⟨u, hu, he⟩ := h
  rw [ht] at hu
  cases hu
  exact he

/-- The device list of any stores on a described bus is a described one. -/
theorem stored_devicesAfter {s : State} (h : s.plain) (stores : List (Addr × Byte)) :
    Stored s (s.setDevices (s.devicesAfter stores)) stores := by
  induction stores with
  | nil => exact .refl h
  | cons store earlier ih => exact (ih.write store.1 store.2).congr rfl

/-- The state an effect leaves on a described bus has seen its stores and is on a described bus still. -/
theorem Effect.Holds.stored {e : Effect} {s t : State} (h : e.Holds s t) (hs : s.plain) : Stored s t e.stores := by
  obtain ⟨-, -, -, -, -, -, -, -, -, -, hdevices, -⟩ := h
  exact (stored_devicesAfter hs e.stores).congr hdevices

/-- Moving SP two up undoes moving it two down. -/
theorem spUp_two_of_spDown_two {s t : State} (h : t.sp = s.spDown 2) : t.spUp 2 = s.sp := by
  rw [spUp_eq, h, spDown_eq s 2 (by decide), BitVec.sub_add_cancel]

/-- The stack bytes above a stack pointer moved two down are those at and below the old one. -/
theorem stackUp_of_spDown_two {s t : State} (h : t.sp = s.spDown 2) :
    t.stackUp 1 = s.stackDown 1 ∧ t.stackUp 2 = s.stackDown 0 := by
  constructor <;>
  · rw [State.stackUp, State.stackDown, h, State.spDown, BitVec.toNat_ofNat]
    congr 2
    omega

/-- The two bytes of a word make the word again. -/
theorem bytes_toNat (w : Addr) :
    (BitVec.ofNat 8 (w.toNat % 256)).toNat + 256 * (BitVec.ofNat 8 (w.toNat / 256)).toNat = w.toNat := by
  have := w.isLt
  rw [BitVec.toNat_ofNat, BitVec.toNat_ofNat]
  omega

/-- Settles O47: the effect of JSR gives the state RTS starts in, and the word RTS pulls is the one JSR pushed. -/
theorem callThenReturnResumesAfterTheCall : Obligations.CallThenReturnResumesAfterTheCall := by
  intro s t u w hplain hbacks hjsr hrts
  have hcall := holds_of_exec (jsrPushesTheAddressOfItsLastByte.1 s (.jsr w) hplain rfl) hjsr
  have hstored := hcall.stored hplain
  have hreturn := holds_of_exec (rtsResumesAfterTheCall.1 t .rts hstored.plain rfl) hrts
  obtain ⟨hta, htx, hty, htsp, -, htflags, -⟩ := hcall
  obtain ⟨hua, hux, huy, husp, hupc, huflags, -⟩ := hreturn
  obtain ⟨hlo, hhi⟩ := stackUp_of_spDown_two htsp
  rw [State.backs_perm (.swap ..)] at hbacks
  have hreadLo : t.peek (s.stackDown 1) = BitVec.ofNat 8 ((s.pcPlus 2).toNat % 256) :=
    (hstored.memory _).trans (State.peekAfter_of_backs hbacks (.head _))
  have hreadHi : t.peek (s.stackDown 0) = BitVec.ofNat 8 ((s.pcPlus 2).toNat / 256) :=
    (hstored.memory _).trans (State.peekAfter_of_backs hbacks (.tail _ (.head _)))
  have hword : t.pulledWord 1 = (s.pcPlus 2).toNat := by
    rw [State.pulledWord, hlo, hhi, hreadLo, hreadHi, bytes_toNat]
  refine ⟨?_, husp.trans (spUp_two_of_spDown_two htsp), huflags.trans htflags, hua.trans hta, hux.trans htx,
    huy.trans hty⟩
  calc u.pc = BitVec.ofNat 16 (t.pulledWord 1 + 1) := hupc
    _ = s.pcPlus 2 + BitVec.ofNat 16 1 := by rw [hword, BitVec.ofNat_add, BitVec.ofNat_toNat, BitVec.setWidth_eq]
    _ = s.pcPlus 3 := pcPlus_add s 2 1

end Sys2Proof.Machine

/-! SUPPORT. Stack, flag and system instructions (45 R240 to R253): one push and one pull of an instruction in
numbers, the interrupt entry and the return from it. -/

namespace Sys2Proof.Machine

/-! ## Operations on the stack -/

/-- An operation that is not a read and changes A, SP, PC, the flags and the device list only has the effect of its
stores, the three registers and the flags. -/
theorem does_of_stack {s : State} {i : Instr} {o : Op} (hi : i.op = o) (hr : o.isRead = false) (h : s.plain)
    {a sp : Byte} {pc : Addr} {f : Flags} {ds : List Device} {stores : List (Addr × Byte)}
    (hop : opRun o (s.resolved i.operand (i.op.ticks i.mode)) =
      done { s.resolved i.operand (i.op.ticks i.mode) with a := a, sp := sp, pc := pc, flags := f, devices := ds })
    (hst : OnlyStored s (s.setDevices ds) stores) :
    i.Does s { i.baseEffect s with a := a, sp := sp, pc := pc, flags := f, stores := stores } := by
  subst hi
  exact does_of_run (.inl h) hop (fun _ => hr.symm) ⟨hst.memory, hst.devices, hst.shape⟩
    (sameHostSide_resolved s i.operand (i.op.ticks i.mode)) rfl rfl rfl rfl rfl rfl rfl rfl rfl

/-- A push after no store, in numbers: one byte at SP. -/
theorem push_resolved {s : State} (h : s.plain) (o : Operand) (base : Nat) (v : Byte) :
    ∃ ds : List Device,
      push v (s.resolved o base) = ((s.resolved o base).setDevices ds).setSp (s.spDown 1) ∧
        OnlyStored s (s.setDevices ds) [(s.stackDown 0, v)] := by
  obtain ⟨ds, hpush, hst⟩ := (resolved_stored h base o).push v
  refine ⟨ds, spDown_eq s 1 (by decide) ▸ hpush, ?_⟩
  rw [← stackAddr_sp]
  exact (hst.congr (u := s.setDevices ds) rfl).toOnlyStored

/-- A mnemonic that pushes one byte has the effect of its store. -/
theorem does_of_push {s : State} {i : Instr} {o : Op} (hi : i.op = o) (hr : o.isRead = false) (h : s.plain) {v : Byte}
    (hop : opRun o (s.resolved i.operand (i.op.ticks i.mode)) =
      done (push v (s.resolved i.operand (i.op.ticks i.mode)))) :
    i.Does s { i.baseEffect s with sp := s.spDown 1, stores := [(s.stackDown 0, v)] } := by
  obtain ⟨ds, hpush, hst⟩ := push_resolved h i.operand (i.op.ticks i.mode) v
  exact does_of_stack hi hr h (hop.trans (congrArg done hpush)) hst

/-- Settles O27: A as it is, and the status byte in numbers. -/
theorem pushesWriteTheStack : Obligations.PushesWriteTheStack :=
  ⟨fun _ _ h hi => does_of_push hi rfl h rfl,
    fun s _ h hi => does_of_push hi rfl h (packStatus_eq s.flags ▸ rfl),
    Op.pha.hasOpcodes, Op.php.hasOpcodes⟩

/-- The first pull of an instruction, in numbers: the byte above SP. -/
theorem withPull_resolved {α : Type} {s : State} (h : s.plain) (o : Operand) (base : Nat) (k : Byte → State → α) :
    withPull (s.resolved o base) k = k (s.peek (s.stackUp 1)) ((s.resolved o base).setSp (s.spUp 1)) := by
  rw [← stackAddr_up, spUp_eq]
  exact (resolved_stored h base o).withPull k

/-- Settles O28: A is the byte that is pulled, and the operation ends in `SetZN`. -/
theorem plaLoadsFromTheStack : Obligations.PlaLoadsFromTheStack := by
  refine ⟨fun s i h hi => ?_, Op.pla.hasOpcodes⟩
  refine does_of_stack hi rfl h (ds := s.devices) ?_ (.none rfl)
  rw [opRun, opPla, withPull_resolved h, setZN_eq]
  rfl

/-- Settles O29: the flags are those of the byte that is pulled. -/
theorem plpLoadsTheFlags : Obligations.PlpLoadsTheFlags := by
  refine ⟨fun s i h hi => ?_, Op.plp.hasOpcodes⟩
  refine does_of_stack hi rfl h (ds := s.devices) ?_ (.none rfl)
  rw [opRun, opPlp, withPull_resolved h, unpackStatus_eq]
  rfl

/-! ## Flag instructions and NOP -/

/-- Settles O30: each operation, in Implied mode, replaces one flag. -/
theorem flagInstructionsWriteOneFlag : Obligations.FlagInstructionsWriteOneFlag :=
  ⟨fun _ _ hi => does_of_implied hi rfl rfl, fun _ _ hi => does_of_implied hi rfl rfl,
    fun _ _ hi => does_of_implied hi rfl rfl, fun _ _ hi => does_of_implied hi rfl rfl,
    fun _ _ hi => does_of_implied hi rfl rfl, fun _ _ hi => does_of_implied hi rfl rfl,
    fun _ _ hi => does_of_implied hi rfl rfl,
    Op.clc.hasOpcodes, Op.sec.hasOpcodes, Op.cli.hasOpcodes, Op.sei.hasOpcodes, Op.cld.hasOpcodes,
    Op.sed.hasOpcodes, Op.clv.hasOpcodes⟩

/-- Settles O31: the operation changes nothing, and its one mode is one byte long and takes two ticks. -/
theorem nopOnlyAdvances : Obligations.NopOnlyAdvances := by
  refine ⟨fun s i hi => does_of_implied hi rfl rfl, Op.nop.hasOpcodes, fun s i hi => ?_⟩
  have himp : i.mode = .imp := Instr.mode_eq_of_modes (by rw [hi]; rfl)
  constructor
  · rw [Instr.baseEffect, Instr.length, himp]; rfl
  · rw [Instr.baseEffect, Instr.crossTicks, himp, hi]; rfl

/-! ## The interrupt entry and BRK -/

/-- The stores of an interrupt entry in numbers. -/
theorem entryStores_eq (s : State) (ret : Addr) (f : Flags) :
    entryStores s.sp ret f = s.frameStores ret { f with i := true } := by
  have hlo : stackAddr (s.sp - 1) = s.stackDown 1 := stackAddr_down s 1 (by decide)
  have hstatus : stackAddr (s.sp - 1 - 1) = s.stackDown 2 := by
    rw [BitVec.sub_sub]
    exact stackAddr_down s 2 (by decide)
  rw [entryStores, State.frameStores, stackAddr_sp, hlo, hstatus, packStatus_eq, loByte_eq, hiByte_eq]

/-- The word at a vector in numbers. -/
theorem word16_vector (s : State) (stores : List (Addr × Byte)) (vec : Addr) :
    word16 (s.peekAfter stores (vec + 1)) (s.peekAfter stores vec) = s.vectorAfter stores vec.toNat := by
  have hlo : BitVec.ofNat 16 vec.toNat = vec := by rw [BitVec.ofNat_toNat, BitVec.setWidth_eq]
  have hhi : BitVec.ofNat 16 (vec.toNat + 1) = vec + 1 := by
    rw [BitVec.ofNat_add, hlo]
    rfl
  rw [word16_eq, State.vectorAfter, hlo, hhi]

/-- An interrupt entry before any store and with SP unmoved, in numbers: the three stores of its frame, I set and B
clear, and PC the word at the vector after those stores. -/
theorem interrupt_eq {s t : State} (h : Stored s t []) (hsp : t.sp = s.sp) (vec : Addr) :
    let stores := s.frameStores t.pc { t.flags with i := true }
    ∃ ds : List Device,
      interrupt vec t =
        { t with
          devices := ds, sp := s.spDown 3, flags := { t.flags with i := true, b := false }
          pc := s.vectorAfter stores vec.toNat } ∧
      OnlyStored s (s.setDevices ds) stores := by
  intro stores
  obtain ⟨ds, hentry, hst⟩ := h.interrupt vec
  have hdown : s.sp - 1 - 1 - 1 = s.spDown 3 := by
    rw [spDown_eq s 3 (by decide), BitVec.sub_sub, BitVec.sub_sub]; rfl
  rw [List.append_nil, hsp, entryStores_eq] at hst hentry
  rw [word16_vector, hdown] at hentry
  exact ⟨ds, hentry, (hst.congr (u := s.setDevices ds) rfl).toOnlyStored⟩

theorem brkSkip_eq (s : State) : brkSkip s = BitVec.ofNat 16 s.params.brkPcSkip.toNat := by
  rw [brkSkip]
  cases s.params.brkPcSkip <;> rfl

/-- Settles O32: an interrupt entry with B set, from the opcode's address plus 1 plus `BRK_PC_SKIP`. -/
theorem brkEntersThroughTheIrqVector : Obligations.BrkEntersThroughTheIrqVector := by
  refine ⟨fun s i h hi => ?_, Op.brk.hasOpcodes⟩
  have himp : i.operand.mode = .imp := Instr.mode_eq_of_modes (by rw [hi]; rfl)
  let r := s.resolved i.operand (i.op.ticks i.mode)
  have hpc : r.pc = s.pcPlus 1 := by
    simp only [r, State.resolved, himp, Mode.length]
  have hret : r.pc + brkSkip r = s.pcPlus (1 + s.params.brkPcSkip.toNat) := by
    rw [brkSkip_eq, hpc]
    exact pcPlus_add s 1 _
  have hstart : Stored s ((setB true r).setPc (s.pcPlus (1 + s.params.brkPcSkip.toNat))) [] :=
    (Stored.refl h).congr rfl
  obtain ⟨ds, hentry, hst⟩ := interrupt_eq hstart rfl vecIrq
  refine does_of_stack hi rfl h (ds := ds) ?_ hst
  rw [opRun, opBrk, hret, hentry]
  rfl

/-! ## RTI -/

/-- The return from an interrupt as an instruction, in numbers: the flags from the byte above SP, PC from the next
two. -/
theorem returnFromInterrupt_resolved {s : State} (h : s.plain) (o : Operand) (base : Nat) :
    returnFromInterrupt (s.resolved o base) =
      { s.resolved o base with
        sp := s.spUp 3, flags := statusFlags (s.peek (s.stackUp 1)), pc := BitVec.ofNat 16 (s.pulledWord 2) } := by
  have hsp2 : s.sp + 1 + 1 = s.spUp 2 := by
    rw [spUp_eq, BitVec.add_assoc]; rfl
  have hsp3 : s.spUp 2 + 1 = s.spUp 3 := by
    rw [spUp_eq, spUp_eq, BitVec.add_assoc]; rfl
  have hstatus : stackAddr (s.sp + 1) = s.stackUp 1 := stackAddr_up s 1
  have hlo : stackAddr (s.spUp 2) = s.stackUp 2 := by rw [spUp_eq, stackAddr_up]
  have hhi : stackAddr (s.spUp 3) = s.stackUp 3 := by rw [spUp_eq, stackAddr_up]
  have hreturn := (resolved_stored h base o).returnFromInterrupt
  rwa [unpackStatus_eq, word16_eq, show (s.resolved o base).sp = s.sp from rfl, hsp2, hsp3, hstatus, hlo, hhi]
    at hreturn

/-- Settles O33: the return pulls the status and then the word PC becomes, and nothing is stored. -/
theorem rtiRestoresStatusAndPc : Obligations.RtiRestoresStatusAndPc := by
  refine ⟨fun s i h hi => ?_, Op.rti.hasOpcodes⟩
  refine does_of_stack hi rfl h (ds := s.devices) ?_ (.none rfl)
  rw [opRun, opRti, returnFromInterrupt_resolved h]
  rfl

end Sys2Proof.Machine

/-! SUPPORT. Exceptions (60_exceptions): the unknown-opcode record and the steps that leave it standing (R260 to R264),
`irq` and `nmi` and the interrupt entry they make (R265 to R272), and RTI from such an entry (R275). -/

namespace Sys2Proof.Machine

/-! ## The unknown-opcode record -/

theorem cpuTick_halted {s : State} {f : Fault} (he : s.everReset) (hh : s.halted = some f) : cpuTick s = .next s := by
  simp [cpuTick, he, hh]

/-- Settles O8: the halted tick, and the step that is one. -/
theorem haltedTickChangesNothing : Obligations.HaltedTickChangesNothing := by
  intro s f hreset hhalted
  have htick := cpuTick_halted hreset hhalted
  refine ⟨htick, fun hcalls honly => (step_of_onlyCpuTicks hcalls honly fun t ht => ?_).trans htick⟩
  cases htick.symm.trans ht
  rfl

/-- Settles O9: the step is the CPU's tick, a dispatch at an undefined opcode, which touches no device. -/
theorem undefinedOpcodeHaltsTheCpu : Obligations.UndefinedOpcodeHaltsTheCpu := by
  intro s hat hquiet honly hundefined
  have htick := (cpuTick_atDispatch hat).trans (dispatch_of_undefined hquiet hundefined)
  simp only [State.atDispatch, Bool.and_eq_true, List.isEmpty_iff] at hat
  obtain ⟨-, hcalls⟩ := hat
  refine (step_of_onlyCpuTicks hcalls honly fun t ht => ?_).trans htick
  cases htick.symm.trans ht
  rfl

/-! ## `irq` and `nmi` -/

theorem State.running_eq_true {s : State} : s.running = true ↔ s.halted = none := by
  rw [State.running, Option.isNone_iff_eq_none]

theorem State.running_eq_false {s : State} : s.running = false ↔ s.halted.isSome = true := by
  rw [State.running]
  cases s.halted <;> simp

theorem irq_of_dropped {s : State} (h : s.flags.i = true ∨ s.running = false) : irq s = s := by
  rw [State.running_eq_false] at h
  simp [irq, h.symm]

theorem irq_of_accepted {s : State} (hr : s.running = true) (hi : s.flags.i = false) :
    irq s = trigger vecIrq s.params.irqCycles s := by
  rw [State.running_eq_true] at hr
  simp [irq, hr, hi]

theorem nmi_of_dropped {s : State} (h : s.running = false) : nmi s = s := by
  rw [State.running_eq_false] at h
  simp [nmi, h]

theorem nmi_of_accepted {s : State} (hr : s.running = true) : nmi s = trigger vecNmi s.params.nmiCycles s := by
  rw [State.running_eq_true] at hr
  simp [nmi, hr]

theorem step_irq {s : State} {rest : List HostCall} (he : s.everReset) (hc : s.calls = .irq :: rest) :
    step s = .next (irq (s.setCalls rest)) := by
  rw [step_call hc]
  exact if_pos he

theorem step_nmi {s : State} {rest : List HostCall} (he : s.everReset) (hc : s.calls = .nmi :: rest) :
    step s = .next (nmi (s.setCalls rest)) := by
  rw [step_call hc]
  exact if_pos he

/-- Settles O34: the step is the call, and the call is dropped. -/
theorem maskedIrqChangesNothing : Obligations.MaskedIrqChangesNothing := by
  intro s rest hreset
  refine ⟨fun hcall hmasked => ?_, fun hcall hhalted => ?_⟩
  · rw [step_irq hreset hcall, irq_of_dropped (s := s.setCalls rest) hmasked]
  · rw [step_nmi hreset hcall, nmi_of_dropped (s := s.setCalls rest) hhalted]

/-! ## The interrupt entry of a trigger -/

/-- The effect of an interrupt entry with B clear (R265, R270): the frame is stored, I is set, and PC is the word at
the vector. -/
def State.entryEffect (s : State) (vec : Addr) : Effect :=
  let stores := s.frameStores s.pc { s.flags with b := false, i := true }
  { s.noEffect with
    sp := s.spDown 3, pc := s.vectorAfter stores vec.toNat, flags := { s.flags with b := false, i := true }
    stores := stores }

theorem interrupt_holds {s : State} (h : s.plain) (vec : Addr) :
    (s.entryEffect vec).Holds s (interrupt vec (setB false s)) := by
  have hstart : Stored s (setB false s) [] := (Stored.refl h).congr rfl
  obtain ⟨ds, hentry, hst⟩ := interrupt_eq hstart rfl vec
  rw [hentry]
  exact ⟨rfl, rfl, rfl, rfl, rfl, rfl, rfl, rfl, rfl, hst.memory, hst.devices, hst.shape, .refl s⟩

/-- An accepted trigger is an interrupt entry that costs its cycles (R271). -/
theorem trigger_holds {s : State} (h : s.plain) (vec : Addr) (cost : Nat) :
    { s.entryEffect vec with budget := s.budget + cost }.Holds s (trigger vec cost s) := by
  obtain ⟨ha, hx, hy, hsp, hpc, hflags, hbudget, hrest⟩ := interrupt_holds h vec
  exact ⟨ha, hx, hy, hsp, hpc, hflags, congrArg (· + cost) hbudget, hrest⟩

/-- Settles O35: the call is accepted and triggers through the IRQ vector. -/
theorem irqEntersThroughItsVector : Obligations.IrqEntersThroughItsVector := by
  intro s rest hplain hreset hrunning hunmasked stores hcall
  refine ⟨_, step_irq hreset hcall, ?_⟩
  rw [irq_of_accepted (s := s.setCalls rest) hrunning hunmasked]
  exact trigger_holds (s := s.setCalls rest) hplain vecIrq s.params.irqCycles

/-- Settles O36: the call is accepted and triggers through the NMI vector. -/
theorem nmiEntersThroughItsVector : Obligations.NmiEntersThroughItsVector := by
  intro s rest hplain hreset hrunning stores hcall
  refine ⟨_, step_nmi hreset hcall, ?_⟩
  rw [nmi_of_accepted (s := s.setCalls rest) hrunning]
  exact trigger_holds (s := s.setCalls rest) hplain vecNmi s.params.nmiCycles

/-! ## RTI from an interrupt entry -/

/-- The stack addresses above a stack pointer moved `n` down lie at and below the old one. -/
theorem stackUp_of_spDown {s t : State} {n : Nat} (hn : n ≤ 256) (h : t.sp = s.spDown n) {k : Nat} (hk : k ≤ n) :
    t.stackUp k = s.stackDown (n - k) := by
  rw [State.stackUp, State.stackDown, h, State.spDown, BitVec.toNat_ofNat]
  congr 2
  omega

/-- Moving SP `n` up undoes moving it `n` down. -/
theorem spUp_of_spDown {s t : State} {n : Nat} (hn : n ≤ 256) (h : t.sp = s.spDown n) : t.spUp n = s.sp := by
  rw [spUp_eq, h, spDown_eq s n hn, BitVec.sub_add_cancel]

/-- The status byte in numbers carries every flag but B. -/
theorem statusFlags_statusByte (f : Flags) : statusFlags (statusByte f) = { f with b := false } := by
  rw [← packStatus_eq, ← unpackStatus_eq, unpackStatus_packStatus]

/-- Settles O48: the effect of the entry gives the state RTI starts in, and the three bytes RTI pulls are those of the
frame. -/
theorem interruptThenReturnResumesMasked : Obligations.InterruptThenReturnResumesMasked := by
  intro s t vec hplain hbacks hrti
  have hentry := interrupt_holds hplain vec
  have hstored := hentry.stored hplain
  have hreturn := holds_of_exec (rtiRestoresStatusAndPc.1 _ .rti hstored.plain rfl) hrti
  obtain ⟨hua, hux, huy, husp, -⟩ := hentry
  obtain ⟨hta, htx, hty, htsp, htpc, htflags, -⟩ := hreturn
  rw [State.backs_perm (List.reverse_perm _).symm] at hbacks
  have hread {k : Nat} (hk : k ≤ 3) {v : Byte} (hm : (s.stackDown (3 - k), v) ∈ (s.entryEffect vec).stores) :
      (interrupt vec (setB false s)).peek ((interrupt vec (setB false s)).stackUp k) = v := by
    rw [stackUp_of_spDown (by decide) husp hk, hstored.memory]
    exact State.peekAfter_of_backs hbacks hm
  have hword : (interrupt vec (setB false s)).pulledWord 2 = s.pc.toNat := by
    rw [State.pulledWord, hread (k := 2) (by decide) (.tail _ (.head _)),
      hread (k := 3) (by decide) (.tail _ (.tail _ (.head _))), bytes_toNat]
  rw [hread (k := 1) (by decide) (.head _), statusFlags_statusByte] at htflags
  rw [hword, BitVec.ofNat_toNat, BitVec.setWidth_eq] at htpc
  exact ⟨htpc, htsp.trans (spUp_of_spDown (by decide) husp), htflags, hta.trans hua, htx.trans hux, hty.trans huy⟩

/-! ## What every step keeps -/

/-- The outcome is no fault, and if it is a next state, `P` holds of it. -/
def NextOrRefused (P : State → Prop) : Result → Prop
  | .next t => P t
  | .fault _ => False
  | .refused _ => True

theorem NextOrRefused.mono {P Q : State → Prop} {r : Result} (h : NextOrRefused P r) (hpq : ∀ t, P t → Q t) :
    NextOrRefused Q r := by
  cases r with
  | next t => exact hpq t h
  | fault f => exact h
  | refused e => trivial

/-- From `s` to `t` the parameters stay, and so does an unknown-opcode record. -/
structure RecordKept (s t : State) : Prop where
  params : t.params = s.params
  record : ∀ f, s.halted = some f → t.halted = some f

theorem RecordKept.of_eq {s t : State} (hp : t.params = s.params) (hh : t.halted = s.halted) : RecordKept s t :=
  ⟨hp, fun _ h => hh.trans h⟩

theorem RecordKept.refl (s : State) : RecordKept s s := .of_eq rfl rfl

theorem RecordKept.trans {s t u : State} (h : RecordKept s t) (k : RecordKept t u) : RecordKept s u :=
  ⟨k.params.trans h.params, fun f hf => k.record f (h.record f hf)⟩

/-- A running CPU has no record to keep. -/
theorem RecordKept.of_running {s t : State} (hp : t.params = s.params) (hr : s.halted = none) : RecordKept s t :=
  ⟨hp, fun f hf => by rw [hr] at hf; cases hf⟩

theorem dispatch_recordKept {s : State} (hr : s.halted = none) : NextOrRefused (RecordKept s) (dispatch s) := by
  obtain ⟨ds, -, ⟨i, hi⟩ | ⟨opcode, -, hu⟩⟩ := dispatch_cases s
  · obtain ⟨t, ht, hframe⟩ := exec_frame i (s.setDevices ds)
    obtain ⟨-, -, -, -, -, hparams⟩ := hframe.host
    rw [hi, ht]
    exact .of_running hparams hr
  · rw [hu]
    exact .of_running rfl hr

theorem cpuTick_recordKept (s : State) : NextOrRefused (RecordKept s) (cpuTick s) := by
  unfold cpuTick
  split
  · split
    next => exact .refl s
    next => exact .of_eq rfl rfl
    next hr _ => exact dispatch_recordKept hr
  · trivial

theorem tickOne_recordKept (id : DeviceId) (s : State) : NextOrRefused (RecordKept s) (tickOne id s) := by
  cases id with
  | cpu => exact cpuTick_recordKept s
  | dev k => exact .of_eq rfl rfl

theorem tickEach_recordKept (ids : List DeviceId) (s : State) : NextOrRefused (RecordKept s) (tickEach ids s) := by
  induction ids generalizing s with
  | nil => exact .refl s
  | cons id ids ih =>
    have hone := tickOne_recordKept id s
    simp only [tickEach]
    cases htick : tickOne id s with
    | next t => rw [htick] at hone; exact (ih t).mono fun _ => hone.trans
    | fault f => rw [htick] at hone; exact hone
    | refused e => trivial

theorem trigger_params (vec : Addr) (cost : Nat) (s : State) : (trigger vec cost s).params = s.params := by
  obtain ⟨_, _, -, he⟩ := interrupt_cases vec (setB false s)
  rw [trigger, he]
  rfl

theorem irq_recordKept (s : State) : RecordKept s (irq s) := by
  by_cases h : s.flags.i = true ∨ s.running = false
  · rw [irq_of_dropped h]
    exact .refl s
  · rw [not_or, Bool.not_eq_true, Bool.not_eq_false] at h
    obtain ⟨hi, hr⟩ := h
    rw [irq_of_accepted hr hi]
    exact .of_running (trigger_params ..) (State.running_eq_true.mp hr)

theorem nmi_recordKept (s : State) : RecordKept s (nmi s) := by
  cases hr : s.running with
  | false =>
    rw [nmi_of_dropped hr]
    exact .refl s
  | true =>
    rw [nmi_of_accepted hr]
    exact .of_running (trigger_params ..) (State.running_eq_true.mp hr)

theorem afterReset_recordKept {f : State → State} {s : State} (h : RecordKept s (f s)) :
    NextOrRefused (RecordKept s) (afterReset f s) := by
  unfold afterReset
  split
  · exact h
  · trivial

theorem connect_recordKept (id : DeviceId) (s : State) : NextOrRefused (RecordKept s) (connect id s) := by
  unfold connect
  split
  · trivial
  · split
    · trivial
    · exact .of_eq rfl rfl

theorem disconnect_recordKept (id : DeviceId) (s : State) : RecordKept s (disconnect id s) := by
  unfold disconnect
  split
  · exact .of_eq rfl rfl
  · exact .of_eq rfl rfl

/-- Every operation of the host but `reset` keeps the record. -/
theorem hostCall_recordKept {call : HostCall} (h : call ≠ .reset) (s : State) :
    NextOrRefused (RecordKept s) (hostCall call s) := by
  cases call with
  | reset => exact absurd rfl h
  | tick => exact tickEach_recordKept _ s
  | irq => exact afterReset_recordKept (irq_recordKept s)
  | nmi => exact afterReset_recordKept (nmi_recordKept s)
  | connect id => exact connect_recordKept id s
  | disconnect id => exact disconnect_recordKept id s
  | read | write => exact .of_eq rfl rfl

/-- Every step but the host's `reset` keeps the record. -/
theorem step_recordKept {s : State} (h : ¬ ∃ rest, s.calls = .reset :: rest) :
    NextOrRefused (RecordKept s) (step s) := by
  cases hc : s.calls with
  | nil => rw [step_tick hc]; exact tickEach_recordKept _ s
  | cons call rest =>
    have hcall : call ≠ .reset := fun he => h ⟨rest, he ▸ hc⟩
    have hused : RecordKept s (s.setCalls rest) := .of_eq rfl rfl
    rw [step_call hc]
    exact (hostCall_recordKept hcall (s.setCalls rest)).mono fun _ => hused.trans

/-- Settles O11: a step that is not `reset` keeps the record. -/
theorem onlyResetClearsTheFault : Obligations.OnlyResetClearsTheFault := by
  intro s t f hhalted hstep
  by_cases hreset : ∃ rest, s.calls = .reset :: rest
  · exact .inr hreset
  · have hkept := step_recordKept hreset
    rw [hstep] at hkept
    exact .inl (hkept.record f hhalted)

/-- Settles O55: `reset` answers a next state with the same parameters, and every other step keeps them or is
refused. -/
theorem stepNeverFaultsAndKeepsTheParameters : Obligations.StepNeverFaultsAndKeepsTheParameters := by
  intro s
  have hkept : NextOrRefused (fun t => t.params = s.params) (step s) := by
    by_cases hreset : ∃ rest, s.calls = .reset :: rest
    · obtain ⟨rest, hc⟩ := hreset
      rw [step_call hc]
      rfl
    · exact (step_recordKept hreset).mono fun _ => RecordKept.params
  refine ⟨fun f hf => ?_, fun t ht => ?_⟩
  · rw [hf] at hkept
    exact hkept
  · rw [ht] at hkept
    exact hkept

end Sys2Proof.Machine

/-! SUPPORT. The `reset` call (70 R300 to R302) and the bring-up of a constructed machine (70 R305). -/

namespace Sys2Proof.Machine

/-! ## `reset` -/

/-- The registers, flags, budget and record after `reset()` with the vector word `w` (10_state R37). -/
def State.resetTo (s : State) (w : Addr) : State :=
  { s with
    a := 0, x := 0, y := 0, sp := 0xFD, pc := w, flags := Flags.zero
    budget := s.params.resetCycles, halted := none, everReset := true }

/-- The little-endian word at the reset vector (70 R300, 20_memory R65). -/
def State.resetVector (s : State) : Addr := BitVec.ofNat 16 (s.peekNat 0xFFFC + 256 * s.peekNat 0xFFFD)

theorem State.resetVector_congr {s t : State} (h : t.devices = s.devices) : t.resetVector = s.resetVector := by
  simp only [State.resetVector, State.peekNat, State.peek_congr h]

/-- The two bytes at `vecReset` make the reset vector. -/
theorem word16_resetVector (s : State) : word16 (s.peek (vecReset + 1)) (s.peek vecReset) = s.resetVector :=
  word16_vector s [] vecReset

/-- Reading a vector on a described bus changes nothing. -/
theorem withVector_of_quiet {α : Type} {s : State} (h : s.quiet) (vec : Addr) (k : Addr → State → α) :
    withVector vec s k = k (word16 (s.peek (vec + 1)) (s.peek vec)) s := by
  rw [withVector, withRead_of_quiet h, withRead_of_quiet h]

/-- What `reset()` does on any bus: the Bus is read only, and every register but PC is fixed; on a described bus
no device changes and PC is the reset vector. -/
theorem cpuReset_cases (s : State) :
    ∃ (w : Addr) (ds : List Device), cpuReset s = (s.setDevices ds).resetTo w ∧ OnlyRead s.devices ds ∧
      (s.quiet → ds = s.devices ∧ w = s.resetVector) := by
  obtain ⟨w, ds, hread, hvector⟩ := withVector_cases vecReset s
  refine ⟨w, ds, hvector _, hread, fun hquiet => ?_⟩
  have hpair : (w, s.setDevices ds) = (s.resetVector, s) := by
    rw [← hvector Prod.mk, withVector_of_quiet hquiet, word16_resetVector]
  obtain ⟨hw, hs⟩ := Prod.mk.inj hpair
  exact ⟨congrArg State.devices hs, hw⟩

/-- Settles O37: what `reset()` does on any bus, and on a described one. -/
theorem resetInitialisesTheCpu : Obligations.ResetInitialisesTheCpu := by
  intro s rest hcall
  obtain ⟨w, ds, hreset, hread, hdescribed⟩ := cpuReset_cases (s.setCalls rest)
  have hstep : step s = .next (((s.setCalls rest).setDevices ds).resetTo w) := by
    rw [step_call hcall, hostCall, hreset]
  refine ⟨⟨_, hstep, rfl, rfl, rfl, rfl, rfl, rfl, rfl, rfl, rfl, hread.bytes⟩, fun hplain => ?_⟩
  obtain ⟨hquiet, -⟩ := State.plain_iff.mp hplain
  obtain ⟨hds, hw⟩ := hdescribed hquiet
  rw [hstep, hds, hw]
  rfl

/-! ## Connecting devices one after the other -/

/-- The state after the host has connected `ds` one after the other, with `rest` as its coming calls. -/
def State.connected (s : State) (ds : List Device) (rest : List HostCall) : State :=
  { s with
    devices := ds.reverse ++ s.devices, detached := s.detached.filter fun d => decide (d ∉ ds), calls := rest }

/-- Connecting no device. -/
theorem State.connected_nil (s : State) : s.connected [] s.calls = s := by
  simp [State.connected]

/-- Connecting a device and then others is connecting them all. -/
theorem State.connected_connected (s : State) (d : Device) (ds : List Device) (calls rest : List HostCall) :
    (s.connected [d] calls).connected ds rest = s.connected (d :: ds) rest := by
  have hdevices : ds.reverse ++ ([d].reverse ++ s.devices) = (d :: ds).reverse ++ s.devices := by simp
  have hdetached : ((s.detached.filter fun e => decide (e ∉ [d])).filter fun e => decide (e ∉ ds)) =
      s.detached.filter fun e => decide (e ∉ d :: ds) := by
    rw [List.filter_filter]
    exact List.filter_congr fun e _ => by simp [Bool.and_comm]
  simp only [State.connected, hdevices, hdetached]

theorem State.detached_handles_nodup {s : State} (hn : s.handles.Nodup) : (s.detached.map Device.handle).Nodup := by
  rw [State.handles, List.map_append] at hn
  exact hn.of_append_right

/-- Dropping the handle of a device that is not connected leaves the others of them. -/
theorem State.dropDevice_detached {s : State} (hn : s.handles.Nodup) {d : Device} (h : d ∈ s.detached) :
    dropDevice d.handle s.detached = s.detached.filter fun e => decide (e ∉ [d]) := by
  simpa using dropDevice_of_mem (State.detached_handles_nodup hn) h

/-- Connecting a device moves it to the Bus; no handle appears or disappears. -/
theorem State.connected_handles {s : State} (hn : s.handles.Nodup) {d : Device} (h : d ∈ s.detached)
    (rest : List HostCall) : (s.connected [d] rest).handles.Perm s.handles := by
  have hdetached := State.detached_handles_nodup hn
  have hmoved := cons_dropDevice_perm hdetached (findDevice_of_mem hdetached h)
  rw [State.dropDevice_detached hn h] at hmoved
  exact (List.perm_middle.symm.trans (hmoved.append_left s.devices)).map Device.handle

/-- The step of a `connect` call for a device that is not connected. -/
theorem step_connect {s : State} (hn : s.handles.Nodup) {d : Device} (h : d ∈ s.detached) {rest : List HostCall}
    (hc : s.calls = .connect d.handle :: rest) : step s = .next (s.connected [d] rest) := by
  rw [step_call hc, hostCall, connect_of_mem_detached (s := s.setCalls rest) hn h, State.setCalls_detached,
    State.dropDevice_detached hn h]
  rfl

theorem stepTimes_succ {s t : State} (h : step s = .next t) (n : Nat) : stepTimes (n + 1) s = stepTimes n t := by
  simp only [stepTimes, h]

/-- As many steps as there are devices to connect, none of them twice, connect them all. -/
theorem stepTimes_connects {s : State} {ds : List Device} {rest : List HostCall} (hn : s.handles.Nodup)
    (hd : ds.Nodup) (hmem : ds ⊆ s.detached) (hc : s.calls = (ds.map fun d => .connect d.handle) ++ rest) (n : Nat) :
    stepTimes (ds.length + n) s = stepTimes n (s.connected ds rest) := by
  induction ds generalizing s with
  | nil =>
    obtain rfl : s.calls = rest := hc
    rw [State.connected_nil, List.length_nil, Nat.zero_add]
  | cons d ds ih =>
    obtain ⟨hfresh, hds⟩ := List.nodup_cons.mp hd
    obtain ⟨hdmem, hdsmem⟩ := List.cons_subset.mp hmem
    rw [List.map_cons, List.cons_append] at hc
    have hleft : ds ⊆ (s.connected [d] ((ds.map fun d => .connect d.handle) ++ rest)).detached := fun e he =>
      List.mem_filter.mpr ⟨hdsmem he, by simpa using fun heq : e = d => hfresh (heq ▸ he)⟩
    rw [List.length_cons, Nat.succ_add, stepTimes_succ (step_connect hn hdmem hc),
      ih ((State.connected_handles hn hdmem _).nodup_iff.mpr hn) hds hleft rfl, State.connected_connected]

/-! ## Bring-up -/

/-- Settles O60: the connects put the devices on the Bus, and the `reset` after them only reads it. -/
theorem bringUpConnectsThenResets : Obligations.BringUpConnectsThenResets := by
  intro u built ds rest hbuilt hds hsub hcalls
  have hconnects := stepTimes_connects (s := u.constructed built) hbuilt hds hsub hcalls 1
  obtain ⟨w, es, hreset, hread, hdescribed⟩ := cpuReset_cases ((u.constructed built).connected ds rest)
  have hdevices : ((u.constructed built).connected ds rest).devices = ds.reverse := List.append_nil _
  rw [hdevices] at hread hdescribed
  refine ⟨(((u.constructed built).connected ds rest).setDevices es).resetTo w, ?_, ?_, .refl _, rfl, rfl, rfl, rfl,
    rfl, rfl, rfl, rfl, rfl, rfl, hread.bytes, fun hquiet => ?_⟩
  · rw [hconnects, ← hreset]
    rfl
  · exact hread.kept.handles.trans List.map_reverse
  · have hbus : ((u.constructed built).connected ds rest).quiet := by
      rw [State.quiet, hdevices, List.all_reverse]
      exact hquiet
    obtain ⟨hes, hw⟩ := hdescribed hbus
    exact ⟨hes, hw.trans (State.resetVector_congr (hdevices.trans hes.symm))⟩

end Sys2Proof.Machine
